-- ==== Sys2Proof/Word.lean ====
section
/-! DEFINITION. The word types of the engine (00_scope.md R5, R6): bytes of a serial frame and 16-bit registers. -/

namespace Sys2Proof

/-- A serial frame's byte: FRAME_BITS = 8 (R5). -/
abbrev Byte := BitVec 8

/-- A register of the register port: REG_WIDTH = 16 (R5). -/
abbrev Word := BitVec 16

/-- The two bytes of a measurement as one word, the first byte read in the high half (R32, R65). -/
def joinBytes (hi lo : Byte) : Word := hi ++ lo

end Sys2Proof
end

