-- ==== Sys2Proof/Syntax.lean ====
section
/-! DEFINITION. The instructions: one constructor per row of spec/opcode_table.json. -/

namespace Sys2Proof

/-- The 12 operations of 30_encoding.md R81 and the 5 sensor command bytes of R85. Operands are typed at their field's
width (R80, R82), so every term carries operands that its word can hold. -/
inductive Instr
  | cfgClkIdleLow
  | cfgDataReleased
  | clkHigh
  | clkLow
  | dataPullLow
  | dataRelease
  | sampleData
  | delayUnit
  | start
  | sendCmd (imm8 : Byte)
  | readByte (s : Bool)
  | measure (imm8 : Byte)
  | cmdMeasureT
  | cmdMeasureRh
  | cmdReadStatus
  | cmdWriteStatus
  | cmdSoftReset
  deriving DecidableEq, Repr

end Sys2Proof
end

