-- ==== Sys2Proof/WellFormed.lean ====
section
/-! DEFINITION. Which fields of an operation word, and which command bytes, are well formed (30_encoding.md R80, R84,
R85). `Instr` itself is typed at its fields' widths; what can be ill formed is a raw word's fields or a raw byte. -/

namespace Sys2Proof

/-- The four fields of an operation word (R80), before decoding. -/
structure OpFields where
  op : BitVec 4
  rsv : BitVec 3
  s : Bool
  imm8 : Byte
  deriving DecidableEq, Repr

/-- OP is an assigned operation number, 0x1 to 0xC (R81). -/
def OpFields.opAssigned (f : OpFields) : Bool :=
  decide (1 ≤ f.op.toNat ∧ f.op.toNat ≤ 12)

/-- RSV "must be 0" (R80). -/
def OpFields.rsvZero (f : OpFields) : Bool :=
  decide (f.rsv = 0)

/-- S is "used by READ_BYTE only, else must be 0" (R80). -/
def OpFields.suppressOk (f : OpFields) : Bool :=
  !f.s || decide (f.op = 0xB)

/-- IMM8 is "used by SEND_CMD and MEASURE only, else must be 0" (R80). -/
def OpFields.immOk (f : OpFields) : Bool :=
  decide (f.imm8 = 0) || decide (f.op = 0xA) || decide (f.op = 0xC)

/-- The fields of a word that names an operation. -/
def OpFields.wf (f : OpFields) : Bool :=
  f.opAssigned && f.rsvZero && f.suppressOk && f.immOk

/-- The address prefix, bits 7:5, is 0b000 (R84). -/
def prefixOk (b : Byte) : Bool :=
  decide (b.extractLsb' 5 3 = 0)

/-- A byte of the "small closed set" of five commands (R85). -/
def commandNamed (b : Byte) : Bool :=
  decide (b ∈ [(0x03 : Byte), 0x05, 0x07, 0x06, 0x1E])

/-- A well-formed sensor command byte. -/
def commandWf (b : Byte) : Bool :=
  prefixOk b && commandNamed b

end Sys2Proof
end

