-- ==== Sys2Proof/Decode.lean ====
section
/-! DEFINITION. Decoding of operation words (30_encoding.md R83) and sensor command bytes (R85), and the encoder. -/

namespace Sys2Proof

/-- The two encodings of 30_encoding.md: a 16-bit operation word, and an 8-bit sensor command byte. -/
inductive Code
  | opw (w : Word)
  | cmd (b : Byte)
  deriving DecidableEq, Repr

/-- Why a code names no instruction: the four conditions of R83, and a byte outside R85's closed set. -/
inductive DecodeReject
  | reservedOp
  | reservedBits
  | unusedS
  | unusedImm8
  | unknownCommand
  deriving DecidableEq, Repr

/-- The fields of an operation word (R80). -/
def fieldsOf (w : Word) : OpFields where
  op := w.extractLsb' 12 4
  rsv := w.extractLsb' 9 3
  s := w.getLsbD 8
  imm8 := w.extractLsb' 0 8

/-- The word that holds four fields (R80). -/
def wordOf (f : OpFields) : Word :=
  ((f.op ++ f.rsv) ++ BitVec.ofBool f.s) ++ f.imm8

/-- The operation of an operation number, with S and IMM8 as its operand (R81, R82). -/
def operationOf (op : BitVec 4) (s : Bool) (imm8 : Byte) : Option Instr :=
  match op.toNat with
  | 0x1 => some .cfgClkIdleLow
  | 0x2 => some .cfgDataReleased
  | 0x3 => some .clkHigh
  | 0x4 => some .clkLow
  | 0x5 => some .dataPullLow
  | 0x6 => some .dataRelease
  | 0x7 => some .sampleData
  | 0x8 => some .delayUnit
  | 0x9 => some .start
  | 0xA => some (.sendCmd imm8)
  | 0xB => some (.readByte s)
  | 0xC => some (.measure imm8)
  | _ => none

/-- `Decode(w)` (R83), its four conditions in the rule's order. -/
def decodeWord (w : Word) : Except DecodeReject Instr :=
  let f := fieldsOf w
  match operationOf f.op f.s f.imm8 with
  | none => .error .reservedOp
  | some i =>
    if f.rsv ≠ 0 then .error .reservedBits
    else if f.op ≠ 0xB ∧ f.s = true then .error .unusedS
    else if f.op ≠ 0xA ∧ f.op ≠ 0xC ∧ f.imm8 ≠ 0 then .error .unusedImm8
    else .ok i

/-- The command a byte names (R85). -/
def decodeCommand (b : Byte) : Except DecodeReject Instr :=
  if b = 0x03 then .ok .cmdMeasureT
  else if b = 0x05 then .ok .cmdMeasureRh
  else if b = 0x07 then .ok .cmdReadStatus
  else if b = 0x06 then .ok .cmdWriteStatus
  else if b = 0x1E then .ok .cmdSoftReset
  else .error .unknownCommand

/-- Decoding, total on both encodings (R83, R92). -/
def decode : Code → Except DecodeReject Instr
  | .opw w => decodeWord w
  | .cmd b => decodeCommand b

/-- An operation word from its number, S and IMM8, RSV = 0 (R80). -/
def opWord (op : BitVec 4) (s : Bool) (imm8 : Byte) : Word :=
  wordOf { op := op, rsv := 0, s := s, imm8 := imm8 }

/-- The code of an instruction (R81, R85). -/
def encode : Instr → Code
  | .cfgClkIdleLow => .opw (opWord 0x1 false 0)
  | .cfgDataReleased => .opw (opWord 0x2 false 0)
  | .clkHigh => .opw (opWord 0x3 false 0)
  | .clkLow => .opw (opWord 0x4 false 0)
  | .dataPullLow => .opw (opWord 0x5 false 0)
  | .dataRelease => .opw (opWord 0x6 false 0)
  | .sampleData => .opw (opWord 0x7 false 0)
  | .delayUnit => .opw (opWord 0x8 false 0)
  | .start => .opw (opWord 0x9 false 0)
  | .sendCmd imm8 => .opw (opWord 0xA false imm8)
  | .readByte s => .opw (opWord 0xB s 0)
  | .measure imm8 => .opw (opWord 0xC false imm8)
  | .cmdMeasureT => .cmd 0x03
  | .cmdMeasureRh => .cmd 0x05
  | .cmdReadStatus => .cmd 0x07
  | .cmdWriteStatus => .cmd 0x06
  | .cmdSoftReset => .cmd 0x1E

/-- The code that the opcode table's numbering gives for `nbits` bits of value `w`: 16 bits are an operation word, 8 bits
a sensor command byte. Neither has a byte order (R60, R92). -/
def tableCode (nbits w : Nat) : Option Code :=
  if nbits = 16 ∧ w < 2 ^ 16 then some (.opw (BitVec.ofNat 16 w))
  else if nbits = 8 ∧ w < 2 ^ 8 then some (.cmd (BitVec.ofNat 8 w))
  else none

/-- The instruction the decoder reads from a word of the opcode table. -/
def decodeTableWord (nbits w : Nat) : Option Instr :=
  match tableCode nbits w with
  | some c =>
    match decode c with
    | .ok i => some i
    | .error _ => none
  | none => none

end Sys2Proof
end

