-- ==== Sys2Proof/Config.lean ====
section
/-! DEFINITION. The parameters of 00_scope.md R5 and the free values (draw(), R7; the sensor's drive, R33). -/

namespace Sys2Proof

/-- The sensor's drive on DATA (10_state.md R33). -/
inductive Drive
  | release
  | low
  deriving DecidableEq, Repr, Inhabited

/-- The bound of a poll, in samples: `UNBOUNDED` (the reference) or a number (R5, D16). -/
inductive Bound
  | unbounded
  | samples (n : Nat)
  deriving DecidableEq, Repr, Inhabited

/-- The OPEN parameters of R5 and `T_UNIT_NS`, as raw numbers. The defaults stand here only so that the type is
inhabited: `Config.board` is opaque, so no proof can see a value of it. -/
structure Params where
  tUnitNs : Nat := 1000
  fCpuHz : Nat := 16000000
  cyclesPerIter : Nat := 4
  extPullup : Bool := false
  readyBound : Bound := .unbounded
  convBound : Bound := .unbounded
  cmdMeasureRh : Byte := 0x05
  reqCodeWidth : Nat := 3
  reqGetTemp : Nat := 0
  reqGetHum : Nat := 1
  reqEcho : Nat := 2
  reqSetStatus : Nat := 3
  reqGetStatus : Nat := 4
  deriving DecidableEq, Repr, Inhabited

/-- A bound that is a number is at least 1 (R5). -/
def Bound.ok : Bound → Bool
  | .unbounded => true
  | .samples n => decide (1 ≤ n)

/-- The five request codes (R190). -/
def Params.requestCodes (p : Params) : List Nat :=
  [p.reqGetTemp, p.reqGetHum, p.reqEcho, p.reqSetStatus, p.reqGetStatus]

/-- The delay count fits 16 bits (R121): the formula's ceiling is at most 0xFFFF exactly when this holds. -/
def Params.countFits (p : Params) : Bool :=
  decide (p.tUnitNs * p.fCpuHz ≤ 0xFFFF * (1000000000 * p.cyclesPerIter))

/-- What R5 and R121 ask of a configuration; a configuration that fails it is refused (U16). -/
def Params.ok (p : Params) : Bool :=
  decide (1 ≤ p.cyclesPerIter) && p.readyBound.ok && p.convBound.ok && p.countFits
    && decide p.requestCodes.Nodup && p.requestCodes.all (fun c => decide (c < 2 ^ p.reqCodeWidth))

/-- A configuration of the hardware: parameters that R5 and R121 admit. An ill-formed one cannot be built. -/
structure Config where
  params : Params := {}
  ok : params.ok = true := by decide
  deriving DecidableEq, Repr, Inhabited

/-- A model refuses an ill-formed configuration (R121, U16): `none` is that refusal. -/
def Config.ofParams? (p : Params) : Option Config :=
  if h : p.ok = true then some ⟨p, h⟩ else none

/-- The board the machine was built as: any configuration (log entry 7). -/
opaque Config.board : Config

/-- `draw()` (R7): a free bit, under no law; the n-th draw of a run (log entry 3). -/
opaque Config.drawBit : Nat → Bool

/-- What the sensor drives at a turn of the engine that the agenda does not script (R33, U8; log entry 6). -/
opaque Config.sensorDrive : Nat → Drive

/-- What the sensor drives at reset: any value (R41; log entry 6). -/
opaque Config.sensorAtReset : Drive

/-- `RESP_CAP`, the response buffer's capacity in bytes (R5). -/
def respCap : Nat := 4

end Sys2Proof
end

