-- ==== Sys2Proof/Machine/Calibrator.lean ====
section
/-! DEFINITION. The timing calibrator (41_timing_calibrator.md R121). -/

namespace Sys2Proof.Machine

/-- `ceil(a / b)` on natural numbers, for b at least 1. -/
def ceilDiv (a b : Nat) : Nat := (a + b - 1) / b

/-- The number of loop iterations of one delay unit: R121's formula. -/
def delayCount (tUnitNs fCpuHz cyclesPerIter : Nat) : Nat :=
  max 1 (ceilDiv (tUnitNs * fCpuHz) (1000000000 * cyclesPerIter))

/-- `DLY_COUNT` of a configuration (R35, R121); a `Config`'s count fits the 16 bits. -/
def calibrate (c : Config) : Word :=
  BitVec.ofNat 16 (delayCount c.params.tUnitNs c.params.fCpuHz c.params.cyclesPerIter)

end Sys2Proof.Machine
end

