-- ==== Sys2Proof/Machine/Registers.lean ====
section
/-! DEFINITION. The parts of the machine's state, as types: 10_state.md, 44_host_requests.md, and the environment. -/

namespace Sys2Proof.Machine

/-- A register of R41's "unspecified" kind: until something writes it, every read is a fresh `draw()`. This is the
spec's own state of the register, not a missing reset value (log entry 4). -/
inductive Held (α : Type)
  | unspecified
  | val (v : α)
  deriving DecidableEq, Repr

/-- A line's direction (R21, R22): 0 = IN, 1 = OUT. -/
inductive Dir
  | inp
  | out
  deriving DecidableEq, Repr

/-- The line registers (R21, R22), less the hardwired fields CLK.PUE = 0 and DATA.LVL = 0. A level is `true` for high. -/
structure Lines where
  clkDir : Dir
  clkLvl : Bool
  dataDir : Dir
  dataPue : Bool
  deriving DecidableEq, Repr

/-- OUTCOME (R27). -/
inductive OpResult
  | none
  | ok
  | nack
  | timeout
  deriving DecidableEq, Repr

/-- The configuration flags (R25) and the status fields (R26 to R29). -/
structure Status where
  /-- CLKCFG as CFG_CLK_IDLE_LOW assigns it, in its sub-step 2 (R100). -/
  clkCfg : Bool
  /-- DATACFG as CFG_DATA_RELEASED assigns it, in its sub-step 2 (R101). -/
  dataCfg : Bool
  /-- R25's condition: CFG_CLK_IDLE_LOW has completed since the last reset (log entry 9). -/
  clkCfgDone : Bool
  /-- R25's condition: CFG_DATA_RELEASED has completed since the last reset (log entry 9). -/
  dataCfgDone : Bool
  busy : Bool
  outcome : OpResult
  illegal : Bool
  ackBit : Held Bool
  smpBit : Held Bool
  deriving DecidableEq, Repr

/-- The names of the scratch registers (R30). -/
inductive ScratchReg
  | cmd
  | acc
  | bitCnt
  | pollCnt
  deriving DecidableEq, Repr

/-- The scratch registers (R30). `none` is R30's "holds no value", the spec's own state (log entry 5). -/
structure Scratch where
  cmd : Option Byte
  acc : Option Byte
  bitCnt : Option (BitVec 4)
  pollCnt : Option Nat
  deriving DecidableEq, Repr

/-- Where the running operation stands at its index: the sub-step there has not been taken (`fresh`); it is a poll that
has taken at least one iteration (`looping`); or a raise was reached and the completion step is next (`raised`). -/
inductive Stage
  | fresh
  | looping
  | raised (o : OpResult)
  deriving DecidableEq, Repr

/-- The sequencer SEQ (R31): IDLE, or (op, k), with the stage of index k (log entry 2). -/
inductive Seq
  | idle
  | run (op : Instr) (k : Nat) (stage : Stage)
  deriving DecidableEq, Repr

/-- A request record (R36, R190). -/
structure Request where
  code : Nat
  w0 : Word
  w1 : Word
  deriving DecidableEq, Repr

/-- Where the host request port stands in ServeRequest and MeasureRequest (R191, R192; log entry 10). -/
inductive PortPhase
  | idle
  | waitIdle (c : Byte)
  | write (c : Byte)
  | check
  | waitDone
  | collect
  deriving DecidableEq, Repr

/-- A byte memory: address and byte pairs, addresses strictly rising. An address that is not listed holds no byte. -/
abbrev Memory := List Host.Cell

/-- The host request port (R36): REQ, RESP_BUF, RESP_LEN, and where the port stands. -/
structure RequestPort where
  req : Option Request
  respBuf : Memory
  respLen : Fin 5
  phase : PortPhase
  deriving DecidableEq, Repr

/-- One turn of an agent (R223; log entry 1). -/
inductive Turn
  /-- The sensor sets its drive (R33). -/
  | sensor (d : Drive)
  /-- The engine takes its step, if it has one (R8). -/
  | engine
  /-- The host writes the register port, `width` bytes (R60). -/
  | write (offset : BitVec 4) (width : Nat) (v : Word)
  /-- The host reads the register port, `width` bytes (R60). -/
  | read (offset : BitVec 4) (width : Nat)
  /-- The host has a sensor command byte sent (R84; log entry 8). -/
  | command (b : Byte)
  /-- The transport presents a request (R190). -/
  | request (r : Request)
  /-- The host request port takes its step, if it has one (R191, R192). -/
  | serve
  /-- The watchdog resets the device (R222). -/
  | reset
  deriving DecidableEq, Repr

/-- The environment: the sensor's drive (R33), the turns still to come, the requests the port has not begun, and what
the port has handed out (log entries 1, 10, 11). -/
structure Env where
  sensDrv : Drive
  agenda : List Turn
  inbox : List Request
  readData : Option Word
  responses : List (List Byte)
  deriving DecidableEq, Repr

end Sys2Proof.Machine
end

