-- ==== Sys2Proof/Machine/ResetValues.lean ====
section
/-! DEFINITION. The reset values of 10_state.md R41. -/

namespace Sys2Proof.Machine

/-- The line registers at reset: inputs, levels and pull-ups 0 (R41). -/
def resetLines : Lines :=
  { clkDir := .inp, clkLvl := false, dataDir := .inp, dataPue := false }

/-- The flags and status fields at reset (R41): ACKBIT and SMPBIT unspecified. -/
def resetStatus : Status :=
  { clkCfg := false, dataCfg := false, clkCfgDone := false, dataCfgDone := false, busy := false, outcome := .none
    illegal := false, ackBit := .unspecified, smpBit := .unspecified }

/-- The scratch registers hold no value at reset and outside an operation (R30, R41). -/
def noScratch : Scratch :=
  { cmd := none, acc := none, bitCnt := none, pollCnt := none }

/-- The host request port at reset (R41): no request, RESP_BUF unspecified, RESP_LEN 0. -/
def resetPort : RequestPort :=
  { req := none, respBuf := [], respLen := 0, phase := .idle }

end Sys2Proof.Machine
end

