-- ==== Sys2Proof/Machine/State.lean ====
section
/-! DEFINITION. The state of the machine (10_state.md R20), its reset, and the reasons a step can stop. -/

namespace Sys2Proof.Machine

/-- Why a step faults. No run reaches one (60_exceptions.md R218: the engine has no traps). -/
inductive Fault
  /-- A micro-program's assignment read a scratch register that holds no value (R30 "A model that reads one holding no
  value faults", R41 "no value (a read faults)", U7 "fault"). Raised by the scratch reads of Operands.lean. Safe: the
  model stops. -/
  | noValue (r : ScratchReg)
  /-- SEQ's index lies beyond the micro-program's end, which no rule produces (R31). Raised by `operate`. Safe: the model
  stops. -/
  | seqOutOfRange
  deriving DecidableEq, Repr

/-- Why a step is refused. -/
inductive Refusal
  /-- An instruction that has no meaning yet. Raised by exec's refused arms only. Safe. -/
  | notModelled (mnemonic : String)
  /-- A register-port access of another width than 2 bytes (R63 "A model refuses an access of any other width", U11).
  Raised by the port. Safe. -/
  | accessWidth (width : Nat)
  /-- An echo, set-status-bit or get-status-bit request (R197 "a model refuses a request with one of these codes", U17).
  Raised by the host request port. Safe. -/
  | requestOutOfScope (code : Nat)
  /-- A request code that does not fit REQ_CODE_WIDTH bits (R36): it cannot be presented. Raised when the transport
  presents it. Safe. -/
  | requestCodeWidth (code : Nat)
  deriving DecidableEq, Repr

/-- The machine's state (R20), the environment's part (R33), and the model's own `fresh` and `cfg`. -/
structure State where
  /-- The parameters of R5, arguments of the model; no step writes them (log entry 7). -/
  cfg : Config
  /-- CLK and DATA (R21, R22). -/
  lines : Lines
  /-- CLKCFG, DATACFG, BUSY, OUTCOME, ILLEGAL, ACKBIT, SMPBIT (R25 to R29). -/
  status : Status
  /-- CMD, ACC, BITCNT, POLLCNT (R30). -/
  scratch : Scratch
  /-- SEQ (R31). -/
  seq : Seq
  /-- RDATA (R32). -/
  rdata : Held Byte
  /-- RESULT (R32). -/
  result : Held Word
  /-- DLY_COUNT (R35). -/
  dlyCount : Word
  /-- REQ, RESP_BUF, RESP_LEN (R36). -/
  port : RequestPort
  /-- SENS_DRV (R33), the turns to come, and what was handed out. -/
  env : Env
  /-- The index of the next free value (log entry 3). -/
  fresh : Nat
  deriving DecidableEq, Repr

/-- `s` with other line registers. -/
def State.withLines (s : State) (l : Lines) : State := { s with lines := l }
/-- `s` with other flags and status fields. -/
def State.withStatus (s : State) (st : Status) : State := { s with status := st }
/-- `s` with other scratch registers. -/
def State.withScratch (s : State) (sc : Scratch) : State := { s with scratch := sc }
/-- `s` with another sequencer. -/
def State.withSeq (s : State) (q : Seq) : State := { s with seq := q }
/-- `s` with another RDATA. -/
def State.withRdata (s : State) (b : Held Byte) : State := { s with rdata := b }
/-- `s` with another RESULT. -/
def State.withResult (s : State) (w : Held Word) : State := { s with result := w }
/-- `s` with another host request port. -/
def State.withPort (s : State) (p : RequestPort) : State := { s with port := p }
/-- `s` with another environment. -/
def State.withEnv (s : State) (e : Env) : State := { s with env := e }
/-- `s` with another free-value index. -/
def State.withFresh (s : State) (n : Nat) : State := { s with fresh := n }

/-- A reset of the engine (70_reset_and_hazards.md R240): every piece of state takes its value of R41 and the calibrator
computes DLY_COUNT. The sensor is not reset (R222), nor the rest of the environment. -/
def State.resetEngine (s : State) : State :=
  { cfg := s.cfg, lines := resetLines, status := resetStatus, scratch := noScratch, seq := .idle
    rdata := .unspecified, result := .unspecified, dlyCount := calibrate s.cfg, port := resetPort
    env := s.env, fresh := s.fresh }

/-- The machine right after reset (R41, R240): any board, any drive of the sensor, nothing scheduled. -/
def State.reset : State :=
  { cfg := Config.board, lines := resetLines, status := resetStatus, scratch := noScratch, seq := .idle
    rdata := .unspecified, result := .unspecified, dlyCount := calibrate Config.board, port := resetPort
    env := { sensDrv := Config.sensorAtReset, agenda := [], inbox := [], readData := none, responses := [] }
    fresh := 0 }

end Sys2Proof.Machine
end

