-- ==== Sys2Proof/Machine/Ops.lean ====
section
/-! DEFINITION. The named operations over the machine's registers and the response buffer, and the shared ends of an
operation word: rejection, issue, completion (30_encoding.md R87 to R91, 60_exceptions.md R210). -/

namespace Sys2Proof.Machine

/-! Free values. -/

/-- `draw()` (00_scope.md R7): a fresh free bit. -/
def drawBit (s : State) : Bool × State :=
  (Config.drawBit s.fresh, s.withFresh (s.fresh + 1))

/-- `n` free bits from index `k` on. -/
def freeBits : (n : Nat) → Nat → BitVec n
  | 0, _ => 0#0
  | n + 1, k => BitVec.cons (Config.drawBit (k + n)) (freeBits n k)

/-- `n` draws at once, as a word. -/
def drawBits (n : Nat) (s : State) : BitVec n × State :=
  (freeBits n s.fresh, s.withFresh (s.fresh + n))

/-- A read of a register bit that may be unspecified (R41): then a draw. -/
def readHeldBit (h : Held Bool) (s : State) : Bool × State :=
  match h with
  | .val b => (b, s)
  | .unspecified => drawBit s

/-- A read of a register that may be unspecified (R41): then draws for all its bits. -/
def readHeld {n : Nat} (h : Held (BitVec n)) (s : State) : BitVec n × State :=
  match h with
  | .val v => (v, s)
  | .unspecified => drawBits n s

/-! The response buffer (20_memory.md R64). -/

/-- The byte at an address, or none where nothing has written it (R41, R64: unspecified). -/
def Memory.read : Memory → Nat → Option Byte
  | [], _ => none
  | (a, b) :: m, x => if a = x then some b else Memory.read m x

/-- A write of one byte, the list kept strictly rising. -/
def Memory.write : Memory → Nat → Byte → Memory
  | [], x, v => [(x, v)]
  | (a, b) :: m, x, v =>
    if x < a then (x, v) :: (a, b) :: m
    else if x = a then (a, v) :: m
    else (a, b) :: Memory.write m x v

/-- Every address of the list is at least `lo`, rising strictly, and inside the buffer. -/
def Memory.wfFrom : Nat → Memory → Bool
  | _, [] => true
  | lo, (a, _) :: m => decide (lo ≤ a) && decide (a < respCap) && Memory.wfFrom (a + 1) m

/-- The canonical form: addresses strictly rising, all below RESP_CAP (R64). -/
def Memory.wf (m : Memory) : Bool := Memory.wfFrom 0 m

/-- A byte of the response as the transport reads it; an unwritten one is draws (R64, U6). -/
def readResponse (a : Nat) (s : State) : Byte × State :=
  match s.port.respBuf.read a with
  | some b => (b, s)
  | none => drawBits 8 s

/-- The `n` bytes from offset `a` on, in order. -/
def readResponses : (n a : Nat) → State → List Byte × State
  | 0, _, s => ([], s)
  | n + 1, a, s =>
    let (b, s1) := readResponse a s
    let (bs, s2) := readResponses n (a + 1) s1
    (b :: bs, s2)

/-! Line registers (40_line_controller.md). -/

/-- `x[CLK.LVL] <- b` (R105, R106). -/
def setClkLvl (b : Bool) (s : State) : State := s.withLines { s.lines with clkLvl := b }
/-- `x[CLK.DIR] <- OUT` (R100). -/
def setClkOut (s : State) : State := s.withLines { s.lines with clkDir := .out }
/-- `x[DATA.DIR] <- d` (R102, R103). -/
def setDataDir (d : Dir) (s : State) : State := s.withLines { s.lines with dataDir := d }
/-- `x[DATA.PUE] <- b` (R102, R103). -/
def setDataPue (b : Bool) (s : State) : State := s.withLines { s.lines with dataPue := b }

/-! Rejection, issue, completion. -/

/-- The two configuration operations, which R87 accepts before configuration. -/
def needsConfig : Instr → Bool
  | .cfgClkIdleLow => false
  | .cfgDataReleased => false
  | _ => true

/-- A rejected operation word (R88, R89, R215): `ILLEGAL` <- 1 and no other effect. -/
def reject (s : State) : State := s.withStatus { s.status with illegal := true }

/-- The issue step (R90): no line changes. -/
def issue (op : Instr) (s : State) : State :=
  (s.withStatus { s.status with busy := true, illegal := false, outcome := .none }).withSeq (.run op 0 .fresh)

/-- R87 for a word that decodes: rejected while busy, or before configuration where the operation needs it; else
issued. -/
def offer (op : Instr) (s : State) : State :=
  if s.status.busy = true then reject s
  else if needsConfig op = true ∧ ¬ (s.status.clkCfg = true ∧ s.status.dataCfg = true) then reject s
  else issue op s

/-- The completion step (R91), for a micro-program that reached its end and for one that ended by `raise` (R210): the
scratch registers hold no value outside the operation (R30). -/
def complete (o : OpResult) (s : State) : State :=
  ((s.withStatus { s.status with outcome := o, busy := false }).withSeq .idle).withScratch noScratch

end Sys2Proof.Machine
end

