-- ==== Sys2Proof/Machine/Flags.lean ====
section
/-! DEFINITION. The status fields as software reads them (10_state.md R27, R37), and the writes of single status fields. -/

namespace Sys2Proof.Machine

/-- A 16-bit word with bit `i` equal to `b` and the other bits 0. -/
def bitAt (b : Bool) (i : Nat) : Word := if b then BitVec.twoPow 16 i else 0

/-- The 2-bit code of OUTCOME (R27). -/
def outcomeCode : OpResult → Word
  | .none => 0
  | .ok => 1
  | .nack => 2
  | .timeout => 3

/-- CLKCFG as a read shows it: 1 once assigned (R100) and once CFG_CLK_IDLE_LOW has completed since the last reset, else 0
(R25; log entry 9). -/
def clkCfgRead (st : Status) : Bool := st.clkCfg && st.clkCfgDone

/-- DATACFG as a read shows it: 1 once assigned (R101) and once CFG_DATA_RELEASED has completed since the last reset, else 0
(R25; log entry 9). -/
def dataCfgRead (st : Status) : Bool := st.dataCfg && st.dataCfgDone

/-- STATUS from its fields, ACKBIT and SMPBIT as read (R37): bits 15:8 read 0. -/
def statusLayout (st : Status) (ack smp : Bool) : Word :=
  bitAt st.busy 0 ||| (outcomeCode st.outcome <<< 1) ||| bitAt st.illegal 3 ||| bitAt ack 4 ||| bitAt smp 5
    ||| bitAt (clkCfgRead st) 6 ||| bitAt (dataCfgRead st) 7

/-- The STATUS register as read (R37); an unspecified ACKBIT or SMPBIT is a draw (R41). -/
def readStatus (s : State) : Word × State :=
  let (ack, s1) := readHeldBit s.status.ackBit s
  let (smp, s2) := readHeldBit s.status.smpBit s1
  (statusLayout s.status ack smp, s2)

/-- `x[SMPBIT] <- b` (R107). -/
def setSmpBit (b : Bool) (s : State) : State := s.withStatus { s.status with smpBit := .val b }
/-- `x[ACKBIT] <- b` (R142). -/
def setAckBit (b : Bool) (s : State) : State := s.withStatus { s.status with ackBit := .val b }
/-- `x[CLKCFG] <- 1` (R100). -/
def setClkCfg (s : State) : State := s.withStatus { s.status with clkCfg := true }
/-- `x[DATACFG] <- 1` (R101). -/
def setDataCfg (s : State) : State := s.withStatus { s.status with dataCfg := true }
/-- CFG_CLK_IDLE_LOW has completed (R25). -/
def setClkCfgDone (s : State) : State := s.withStatus { s.status with clkCfgDone := true }
/-- CFG_DATA_RELEASED has completed (R25). -/
def setDataCfgDone (s : State) : State := s.withStatus { s.status with dataCfgDone := true }

end Sys2Proof.Machine
end

