-- ==== Sys2Proof/Machine/Operands.lean ====
section
/-! DEFINITION. What an operation reads: the level on each line (10_state.md R34), a sample (40_line_controller.md R107),
the LINES register (R38), the operand of a command (R82), and the scratch registers (R30). -/

namespace Sys2Proof.Machine

/-- `Bus(DATA)` (R34): wired-AND of the engine and the sensor; high through a pull-up; else floating, a draw. -/
def busData (s : State) : Bool × State :=
  if s.lines.dataDir = .out ∨ s.env.sensDrv = .low then (false, s)
  else if s.lines.dataPue = true ∨ s.cfg.params.extPullup = true then (true, s)
  else drawBit s

/-- `Bus(CLK)` (R34): the driven level, or a draw while CLK is an input. -/
def busClk (s : State) : Bool × State :=
  if s.lines.clkDir = .out then (s.lines.clkLvl, s) else drawBit s

/-- `Sample()` (R107): the level on DATA, or a draw while the engine drives DATA itself; written to SMPBIT. -/
def sample (s : State) : Bool × State :=
  let (b, s1) := if s.lines.dataDir = .out then drawBit s else busData s
  (b, setSmpBit b s1)

/-- LINES from the line fields and the two bus levels as read (R38): the hardwired CLK.PUE and DATA.LVL read 0. -/
def linesLayout (l : Lines) (clk data : Bool) : Word :=
  bitAt (decide (l.clkDir = .out)) 0 ||| bitAt l.clkLvl 1 ||| bitAt (decide (l.dataDir = .out)) 3
    ||| bitAt l.dataPue 5 ||| bitAt clk 6 ||| bitAt data 7

/-- The LINES register as read (R38): no `Sample()`, so SMPBIT stays. The fields are those of the step of the read, also
between the two sub-steps of `DataLow()` or `DataRelease()`, as R38, R72, R223 and R224 say and as V17a reads TRANSIENT
after reset; that R42(a), "visible only to the sensor", masks no read is the model's ruling (log entry 19). -/
def readLines (s : State) : Word × State :=
  let (clk, s1) := busClk s
  let (data, s2) := busData s1
  (linesLayout s.lines clk data, s2)

/-- The command byte an instruction sends (R82, R85), if it sends one. -/
def commandOf : Instr → Option Byte
  | .sendCmd imm8 => some imm8
  | .measure imm8 => some imm8
  | .cmdMeasureT => some 0x03
  | .cmdMeasureRh => some 0x05
  | .cmdReadStatus => some 0x07
  | .cmdWriteStatus => some 0x06
  | .cmdSoftReset => some 0x1E
  | _ => none

/-- A read of CMD. R30: "A model that reads one holding no value faults"; R41: "no value (a read faults)"; U7: "fault". -/
def getCmd (s : State) : Except Fault Byte :=
  match s.scratch.cmd with
  | some v => .ok v
  | none => .error (.noValue .cmd)

/-- A read of ACC. R30: "A model that reads one holding no value faults"; R41: "no value (a read faults)"; U7: "fault". -/
def getAcc (s : State) : Except Fault Byte :=
  match s.scratch.acc with
  | some v => .ok v
  | none => .error (.noValue .acc)

/-- A read of BITCNT. R30: "A model that reads one holding no value faults"; R41: "no value (a read faults)"; U7: "fault". -/
def getBitCnt (s : State) : Except Fault (BitVec 4) :=
  match s.scratch.bitCnt with
  | some v => .ok v
  | none => .error (.noValue .bitCnt)

/-- A read of POLLCNT. R30: "A model that reads one holding no value faults"; R41: "no value (a read faults)"; U7: "fault". -/
def getPollCnt (s : State) : Except Fault Nat :=
  match s.scratch.pollCnt with
  | some v => .ok v
  | none => .error (.noValue .pollCnt)

/-- `x[CMD] <- v`. -/
def setCmd (v : Byte) (s : State) : State := s.withScratch { s.scratch with cmd := some v }
/-- `x[ACC] <- v`. -/
def setAcc (v : Byte) (s : State) : State := s.withScratch { s.scratch with acc := some v }
/-- `x[BITCNT] <- v`. -/
def setBitCnt (v : BitVec 4) (s : State) : State := s.withScratch { s.scratch with bitCnt := some v }
/-- `x[POLLCNT] <- v`. -/
def setPollCnt (v : Nat) (s : State) : State := s.withScratch { s.scratch with pollCnt := some v }

end Sys2Proof.Machine
end

