-- ==== Sys2Proof/Machine/Micro.lean ====
section
/-! DEFINITION. Micro-programs (42_transaction.md R135): lists of sub-steps with the assignments that ride on them, and
`operate`, one step of the engine for one operation. -/

namespace Sys2Proof.Machine

/-- An assignment to an internal register. It "takes effect in the same step as the next sub-step listed after it, or,
if none follows within the operation, in the completion step" (R135). -/
inductive Upd
  /-- `x[CMD] <- cmd` (R141). -/
  | loadCmd (c : Byte)
  /-- `x[CMD] <- (x[CMD] << 1) mod 256` (R141). -/
  | shiftCmd
  /-- `x[BITCNT] <- 0` (R141, R147). -/
  | clearBitCnt
  /-- `x[BITCNT] <- x[BITCNT] + 1` (R141, R147). -/
  | incBitCnt
  /-- `x[ACKBIT] <- a`, a the sample just taken (R142). -/
  | ackFromSample
  /-- `x[ACC] <- 0` (R147). -/
  | clearAcc
  /-- `x[ACC] <- ((x[ACC] << 1) mod 256) | b`, b the sample just taken (R147). -/
  | shiftInSample
  /-- `x[RDATA] <- x[ACC]` (R147). -/
  | rdataFromAcc
  /-- `x[POLLCNT] <- 0` (R145, R146). -/
  | clearPollCnt
  /-- `x[RESULT] <- {hi, lo}` (R171): hi stands in RDATA since the first byte read, lo in ACC. -/
  | resultFromBytes
  /-- CFG_CLK_IDLE_LOW has completed since the last reset: R25's condition, met in the completion step (R91). -/
  | clkCfgDone
  /-- CFG_DATA_RELEASED has completed since the last reset: R25's condition, met in the completion step (R91). -/
  | dataCfgDone
  deriving DecidableEq, Repr

/-- A sub-step (00_scope.md R8). -/
inductive Act
  /-- `ClkHigh()` (R105), `ClkLow()` (R106), and the first sub-step of CFG_CLK_IDLE_LOW (R100). -/
  | clkLevel (b : Bool)
  /-- The second sub-step of CFG_CLK_IDLE_LOW: `x[CLK.DIR] <- OUT; x[CLKCFG] <- 1` (R100). -/
  | clkConfigure
  /-- The second sub-step of CFG_DATA_RELEASED: `x[DATA.PUE] <- 1; x[DATACFG] <- 1` (R101). -/
  | dataConfigure
  /-- The first sub-step of `DataLow()`: `x[DATA.PUE] <- 0` (R102). -/
  | dataPueOff
  /-- The second sub-step of `DataLow()`: `x[DATA.DIR] <- OUT` (R102). -/
  | dataDirOut
  /-- The first sub-step of `DataRelease()`: `x[DATA.DIR] <- IN` (R103). -/
  | dataDirIn
  /-- The second sub-step of `DataRelease()`: `x[DATA.PUE] <- 1` (R103). -/
  | dataPueOn
  /-- The first sub-step of a command bit: of `DataRelease()` if `x[CMD][7]` = 1, else of `DataLow()` (R141). -/
  | bitFirst
  /-- The second sub-step of a command bit (R141). -/
  | bitSecond
  /-- `Delay()` (R122). -/
  | delay
  /-- `Sample()` (R107). -/
  | sample
  /-- The ninth pulse's `ClkLow()`, then `if a = 1 then raise NACK` (R142). -/
  | ackClkLow
  /-- An iteration of `PollHigh(READY_BOUND)` (R143, R145). -/
  | pollReady
  /-- An iteration of `PollLow(CONV_BOUND)` (R146, R171). -/
  | pollConversion
  deriving DecidableEq, Repr

/-- A sub-step with the assignments that ride on it, done before it in order. -/
structure SubStep where
  pre : List Upd
  act : Act
  deriving DecidableEq, Repr

/-- A micro-program: its sub-steps, and the assignments that ride on the completion step. -/
structure MicroProgram where
  steps : List SubStep
  final : List Upd
  deriving DecidableEq, Repr

/-- What follows a sub-step: the next index, the same poll again, or the completion step of a raise. -/
inductive Flow
  | advance
  | again
  | raise (o : OpResult)
  deriving DecidableEq, Repr

/-- The sample just taken, which `Sample()` left in SMPBIT. -/
def lastSample (s : State) : Bool × State := readHeldBit s.status.smpBit s

/-- Do one assignment. -/
def assign (u : Upd) (s : State) : Except Fault State :=
  match u with
  | .loadCmd c => .ok (setCmd c s)
  | .shiftCmd =>
    match getCmd s with
    | .ok v => .ok (setCmd (v <<< 1) s)
    | .error f => .error f
  | .clearBitCnt => .ok (setBitCnt 0 s)
  | .incBitCnt =>
    match getBitCnt s with
    | .ok v => .ok (setBitCnt (v + 1) s)
    | .error f => .error f
  | .ackFromSample =>
    let (a, s1) := lastSample s
    .ok (setAckBit a s1)
  | .clearAcc => .ok (setAcc 0 s)
  | .shiftInSample =>
    match getAcc s with
    | .ok v =>
      let (b, s1) := lastSample s
      .ok (setAcc ((v <<< 1) ||| (BitVec.ofBool b).zeroExtend 8) s1)
    | .error f => .error f
  | .rdataFromAcc =>
    match getAcc s with
    | .ok v => .ok (s.withRdata (.val v))
    | .error f => .error f
  | .clearPollCnt => .ok (setPollCnt 0 s)
  | .resultFromBytes =>
    match getAcc s with
    | .ok lo =>
      let (hi, s1) := readHeld s.rdata s
      .ok (s1.withResult (.val (joinBytes hi lo)))
    | .error f => .error f
  | .clkCfgDone => .ok (setClkCfgDone s)
  | .dataCfgDone => .ok (setDataCfgDone s)

/-- Do assignments in order. -/
def assignAll : List Upd → State → Except Fault State
  | [], s => .ok s
  | u :: us, s =>
    match assign u s with
    | .ok s1 => assignAll us s1
    | .error f => .error f

/-- A poll iteration that did not see its level (R145, R146): count it, and expire when the count reaches the bound. -/
def pollMiss (bound : Bound) (s : State) : Except Fault (State × Flow) :=
  match getPollCnt s with
  | .ok n =>
    let s1 := setPollCnt (n + 1) s
    if bound = .samples (n + 1) then .ok (s1, .raise .timeout) else .ok (s1, .again)
  | .error f => .error f

/-- One iteration of a poll for a level (R145, R146). -/
def pollOnce (level : Bool) (bound : Bound) (s : State) : Except Fault (State × Flow) :=
  let (b, s1) := sample s
  if b = level then .ok (s1, .advance) else pollMiss bound s1

/-- `if a = 1 then raise NACK` (R142). -/
def ackFlow : Bool → Flow
  | true => .raise .nack
  | false => .advance

/-- Do one sub-step. -/
def perform (a : Act) (s : State) : Except Fault (State × Flow) :=
  match a with
  | .clkLevel b => .ok (setClkLvl b s, .advance)
  | .clkConfigure => .ok (setClkCfg (setClkOut s), .advance)
  | .dataConfigure => .ok (setDataCfg (setDataPue true s), .advance)
  | .dataPueOff => .ok (setDataPue false s, .advance)
  | .dataDirOut => .ok (setDataDir .out s, .advance)
  | .dataDirIn => .ok (setDataDir .inp s, .advance)
  | .dataPueOn => .ok (setDataPue true s, .advance)
  | .bitFirst =>
    match getCmd s with
    | .ok c => .ok (if c.getLsbD 7 then setDataDir .inp s else setDataPue false s, .advance)
    | .error f => .error f
  | .bitSecond =>
    match getCmd s with
    | .ok c => .ok (if c.getLsbD 7 then setDataPue true s else setDataDir .out s, .advance)
    | .error f => .error f
  | .delay => .ok (s, .advance)
  | .sample => .ok ((sample s).2, .advance)
  | .ackClkLow =>
    let (a, s1) := readHeldBit s.status.ackBit s
    .ok (setClkLvl false s1, ackFlow a)
  | .pollReady => pollOnce true s.cfg.params.readyBound s
  | .pollConversion => pollOnce false s.cfg.params.convBound s

/-- What the step at index `k` leaves in SEQ (R31): a poll that goes on stays at its index. -/
def nextSeq (op : Instr) (k : Nat) : Flow → Seq
  | .advance => .run op (k + 1) .fresh
  | .again => .run op k .looping
  | .raise o => .run op k (.raised o)

/-- The result of a step. -/
abbrev Result := Host.Outcome State Fault Refusal

/-- The step of the sub-step at index `k`; the assignments before a poll ride on its first iteration only. -/
def takeSubStep (op : Instr) (k : Nat) (st : SubStep) (again : Bool) (s : State) : Result :=
  match assignAll (if again then [] else st.pre) s with
  | .error f => .fault f
  | .ok s1 =>
    match perform st.act s1 with
    | .error f => .fault f
    | .ok (s2, flow) => .next (s2.withSeq (nextSeq op k flow))

/-- The completion step of a micro-program that reached its end (R91), with the assignments that ride on it (R135). -/
def finish (p : MicroProgram) (s : State) : Result :=
  match assignAll p.final s with
  | .error f => .fault f
  | .ok s1 => .next (complete .ok s1)

/-- The step at index `k` of the running operation. -/
def continueOp (op : Instr) (p : MicroProgram) (k : Nat) (stage : Stage) (s : State) : Result :=
  match stage with
  | .raised o => .next (complete o s)
  | stage =>
    match p.steps[k]? with
    | some st => takeSubStep op k st (decide (stage = .looping)) s
    | none => if k = p.steps.length then finish p s else .fault .seqOutOfRange

/-- One step of the engine for operation `op` with micro-program `p`: with SEQ at IDLE, R87 and the issue step (R90);
with `op` running, its next sub-step or its completion (R91); with another operation running, R87's rejection. -/
def operate (op : Instr) (p : MicroProgram) (s : State) : Result :=
  match s.seq with
  | .idle => .next (offer op s)
  | .run op' k stage => if op' = op then continueOp op p k stage s else .next (reject s)

/-! Building micro-programs. -/

/-- A list of sub-steps on which nothing rides. -/
def plain (as : List Act) : List SubStep := as.map (fun a => { pre := [], act := a })

/-- Assignments that ride on the first sub-step of a list (R135). -/
def riding (us : List Upd) : List SubStep → List SubStep
  | [] => []
  | st :: rest => { st with pre := us ++ st.pre } :: rest

/-- `ClkHigh()` (R105). -/
def mClkHigh : List SubStep := plain [.clkLevel true]
/-- `ClkLow()` (R106). -/
def mClkLow : List SubStep := plain [.clkLevel false]
/-- `DataLow()` (R102): two sub-steps. -/
def mDataLow : List SubStep := plain [.dataPueOff, .dataDirOut]
/-- `DataRelease()` (R103): two sub-steps. -/
def mDataRelease : List SubStep := plain [.dataDirIn, .dataPueOn]
/-- `Sample()` (R107). -/
def mSample : List SubStep := plain [.sample]
/-- `Delay()` (R122). -/
def mDelay : List SubStep := plain [.delay]

end Sys2Proof.Machine
end

