-- ==== Sys2Proof/Machine/LineController.lean ====
section
/-! DEFINITION. The line controller's operations (40_line_controller.md R100, R101, R108 to R112). -/

namespace Sys2Proof.Machine

/-- CFG_CLK_IDLE_LOW's two sub-steps: the level first, then the direction, and with it `x[CLKCFG] <- 1` (R100, D9); the
completion meets R25's condition. -/
def cfgClkIdleLowProgram : MicroProgram :=
  { steps := plain [.clkLevel false, .clkConfigure], final := [.clkCfgDone] }

/-- CFG_CLK_IDLE_LOW (R100). -/
def execCfgClkIdleLow (s : State) : Result := operate .cfgClkIdleLow cfgClkIdleLowProgram s

/-- CFG_DATA_RELEASED's two sub-steps, on the line those of `DataRelease()`, and with the second `x[DATACFG] <- 1` (R101,
D10); the completion meets R25's condition. -/
def cfgDataReleasedProgram : MicroProgram :=
  { steps := plain [.dataDirIn, .dataConfigure], final := [.dataCfgDone] }

/-- CFG_DATA_RELEASED (R101). -/
def execCfgDataReleased (s : State) : Result := operate .cfgDataReleased cfgDataReleasedProgram s

/-- `ClkHigh(); complete OK` (R108). -/
def clkHighProgram : MicroProgram := { steps := mClkHigh, final := [] }

/-- CLK_HIGH (R108). -/
def execClkHigh (s : State) : Result := operate .clkHigh clkHighProgram s

/-- `ClkLow(); complete OK` (R109). -/
def clkLowProgram : MicroProgram := { steps := mClkLow, final := [] }

/-- CLK_LOW (R109). -/
def execClkLow (s : State) : Result := operate .clkLow clkLowProgram s

/-- `DataLow(); complete OK` (R110). -/
def dataPullLowProgram : MicroProgram := { steps := mDataLow, final := [] }

/-- DATA_PULL_LOW (R110). -/
def execDataPullLow (s : State) : Result := operate .dataPullLow dataPullLowProgram s

/-- `DataRelease(); complete OK` (R111). -/
def dataReleaseProgram : MicroProgram := { steps := mDataRelease, final := [] }

/-- DATA_RELEASE (R111). -/
def execDataRelease (s : State) : Result := operate .dataRelease dataReleaseProgram s

/-- `b <- Sample(); complete OK` (R112). -/
def sampleDataProgram : MicroProgram := { steps := mSample, final := [] }

/-- SAMPLE_DATA (R112). -/
def execSampleData (s : State) : Result := operate .sampleData sampleDataProgram s

end Sys2Proof.Machine
end

