-- ==== Sys2Proof/Machine/Transaction.lean ====
section
/-! DEFINITION. The transaction operations: start condition, command, byte read, and the ready poll
(42_transaction.md R136 to R149). -/

namespace Sys2Proof.Machine

/-- `StartSeq` (R136): 12 primitives, 14 sub-steps. -/
def startSeq : List SubStep :=
  mClkHigh ++ mDelay ++ mDataLow ++ mDelay ++ mClkLow ++ mDelay
    ++ mClkHigh ++ mDelay ++ mDataRelease ++ mDelay ++ mClkLow ++ mDelay

/-- `StartSeq; complete OK` (R137). -/
def startProgram : MicroProgram := { steps := startSeq, final := [] }

/-- START (R137). -/
def execStart (s : State) : Result := operate .start startProgram s

/-- One command bit (R141): its data primitive, then a clock pulse between delays. -/
def bitSeq : List SubStep := plain [.bitFirst, .bitSecond] ++ mDelay ++ mClkHigh ++ mDelay ++ mClkLow

/-- What R141 assigns after each bit's `ClkLow()`; it rides on the next sub-step (R135). -/
def afterBit : List Upd := [.shiftCmd, .incBitCnt]

/-- `SendCmd` phase 2 (R141): the 8 bits, bit 7 first. -/
def commandBits (cmd : Byte) : List SubStep :=
  riding [.loadCmd cmd, .clearBitCnt] bitSeq ++ (List.replicate 7 (riding afterBit bitSeq)).flatten

/-- `SendCmd` phase 3 (R142): the acknowledgment on the ninth clock pulse. -/
def ackSeq : List SubStep :=
  riding afterBit mDataRelease ++ mDelay ++ mClkHigh ++ mDelay ++ mSample
    ++ riding [.ackFromSample] (plain [.ackClkLow])

/-- `SendCmd(cmd)` (R140 to R143); the ready poll is its last index. -/
def sendCmdSeq (cmd : Byte) : List SubStep :=
  startSeq ++ commandBits cmd ++ ackSeq ++ riding [.clearPollCnt] (plain [.pollReady])

/-- `SendCmd(cmd)`, then `complete OK` (R139). -/
def sendCmdProgram (cmd : Byte) : MicroProgram := { steps := sendCmdSeq cmd, final := [] }

/-- The engine's step while it sends a command byte as SEND_CMD (R84, R139). -/
def transmitCommand (cmd : Byte) (s : State) : Result := operate (.sendCmd cmd) (sendCmdProgram cmd) s

/-- SEND_CMD (R139). -/
def execSendCmd (imm8 : Byte) (s : State) : Result := transmitCommand imm8 s

/-- One data bit of a byte read (R147). -/
def readBitSeq : List SubStep :=
  mDelay ++ mClkHigh ++ mDelay ++ mSample ++ riding [.shiftInSample, .incBitCnt] mClkLow

/-- `ReadByte(s)` (R147), less its last assignment `x[RDATA] <- x[ACC]`, which rides on what follows (R135). -/
def readByteSeq (suppress : Bool) : List SubStep :=
  riding [.clearAcc, .clearBitCnt] (List.replicate 8 readBitSeq).flatten
    ++ (if suppress then [] else mDataLow)
    ++ mDelay ++ mClkHigh ++ mDelay ++ mClkLow ++ mDataRelease ++ mDelay

/-- `ReadByte(s)`, then `complete OK` (R148). -/
def readByteProgram (suppress : Bool) : MicroProgram :=
  { steps := readByteSeq suppress, final := [.rdataFromAcc] }

/-- READ_BYTE (R148). -/
def execReadByte (suppress : Bool) (s : State) : Result :=
  operate (.readByte suppress) (readByteProgram suppress) s

end Sys2Proof.Machine
end

