-- ==== Sys2Proof/Machine/Measurement.lean ====
section
/-! DEFINITION. The measurement operation (43_measurement.md R170, R171). -/

namespace Sys2Proof.Machine

/-- `Measure(cmd)` (R171): the command, the conversion poll, the first byte acknowledged, the second not. The first
read's `x[RDATA] <- x[ACC]` rides on the second read's first sub-step; RESULT and the second RDATA on the completion. -/
def measureSeq (cmd : Byte) : List SubStep :=
  sendCmdSeq cmd ++ riding [.clearPollCnt] (plain [.pollConversion])
    ++ readByteSeq false ++ riding [.rdataFromAcc] (readByteSeq true)

/-- MEASURE's micro-program (R171). -/
def measureProgram (cmd : Byte) : MicroProgram :=
  { steps := measureSeq cmd, final := [.resultFromBytes, .rdataFromAcc] }

/-- MEASURE (R170). -/
def execMeasure (imm8 : Byte) (s : State) : Result := operate (.measure imm8) (measureProgram imm8) s

end Sys2Proof.Machine
end

