-- ==== Sys2Proof/Machine/SensorCommands.lean ====
section
/-! DEFINITION. The sensor command bytes (30_encoding.md R84, R85): each is sent as it stands by `SendCmd`, the effect the
spec gives a command byte in the engine; what the sensor then does is outside (00_scope.md R4; log entry 8). -/

namespace Sys2Proof.Machine

/-- CMD_MEASURE_T, 0x03 (R85). -/
def execCmdMeasureT (s : State) : Result := transmitCommand 0x03 s

/-- CMD_MEASURE_RH, 0x05 (R85). -/
def execCmdMeasureRh (s : State) : Result := transmitCommand 0x05 s

/-- CMD_READ_STATUS, 0x07 (R85). -/
def execCmdReadStatus (s : State) : Result := transmitCommand 0x07 s

/-- CMD_WRITE_STATUS, 0x06 (R85). -/
def execCmdWriteStatus (s : State) : Result := transmitCommand 0x06 s

/-- CMD_SOFT_RESET, 0x1E (R85). -/
def execCmdSoftReset (s : State) : Result := transmitCommand 0x1E s

end Sys2Proof.Machine
end

