-- ==== Sys2Proof/Machine/Timing.lean ====
section
/-! DEFINITION. The delay unit (41_timing_calibrator.md R122, R123). -/

namespace Sys2Proof.Machine

/-- `Delay(); complete OK` (R123). -/
def delayUnitProgram : MicroProgram := { steps := mDelay, final := [] }

/-- DELAY_UNIT (R123). -/
def execDelayUnit (s : State) : Result := operate .delayUnit delayUnitProgram s

end Sys2Proof.Machine
end

