-- ==== Sys2Proof/Machine/Dispatch.lean ====
section
/-! DEFINITION. One arm per instruction: one step of the engine for it (log entry 2). -/

namespace Sys2Proof.Machine

def exec (i : Instr) (s : State) : Host.Outcome State Fault Refusal :=
  match i with
  | .cfgClkIdleLow => Sys2Proof.Machine.execCfgClkIdleLow s
  | .cfgDataReleased => Sys2Proof.Machine.execCfgDataReleased s
  | .clkHigh => Sys2Proof.Machine.execClkHigh s
  | .clkLow => Sys2Proof.Machine.execClkLow s
  | .dataPullLow => Sys2Proof.Machine.execDataPullLow s
  | .dataRelease => Sys2Proof.Machine.execDataRelease s
  | .sampleData => Sys2Proof.Machine.execSampleData s
  | .delayUnit => Sys2Proof.Machine.execDelayUnit s
  | .start => Sys2Proof.Machine.execStart s
  | .sendCmd imm8 => Sys2Proof.Machine.execSendCmd imm8 s
  | .readByte sup => Sys2Proof.Machine.execReadByte sup s
  | .measure imm8 => Sys2Proof.Machine.execMeasure imm8 s
  | .cmdMeasureT => Sys2Proof.Machine.execCmdMeasureT s
  | .cmdMeasureRh => Sys2Proof.Machine.execCmdMeasureRh s
  | .cmdReadStatus => Sys2Proof.Machine.execCmdReadStatus s
  | .cmdWriteStatus => Sys2Proof.Machine.execCmdWriteStatus s
  | .cmdSoftReset => Sys2Proof.Machine.execCmdSoftReset s

end Sys2Proof.Machine
end

