-- ==== Sys2Proof/Machine/Port.lean ====
section
/-! DEFINITION. The register port (20_memory.md R60 to R63) and the handling of an operation word (30_encoding.md R87). -/

namespace Sys2Proof.Machine

/-- A code offered to the engine (R87): rejected while busy before it is decoded, rejected where it decodes to nothing,
else a step of its instruction, which applies the rest of R87. -/
def issueCode (c : Code) (s : State) : Result :=
  if s.status.busy = true then .next (reject s)
  else
    match decode c with
    | .ok i => exec i s
    | .error _ => .next (reject s)

/-- What a read of a register returns (R61): OPW and the reserved offsets read 0. -/
def readRegister (offset : BitVec 4) (s : State) : Word × State :=
  match offset.toNat with
  | 1 => readStatus s
  | 2 =>
    let (b, s1) := readHeld s.rdata s
    (b.zeroExtend 16, s1)
  | 3 => readHeld s.result s
  | 4 => readLines s
  | 5 => (s.dlyCount, s)
  | _ => (0, s)

/-- `MemRead(offset, width)` (R60, R63): the value goes to the host and nothing else changes (R62). -/
def portRead (offset : BitVec 4) (width : Nat) (s : State) : Result :=
  if width = 2 then
    let (v, s1) := readRegister offset s
    .next (s1.withEnv { s1.env with readData := some v })
  else .refused (.accessWidth width)

/-- `MemWrite(offset, width, v)` (R60 to R63): a write to OPW issues a word, any other is ignored. -/
def portWrite (offset : BitVec 4) (width : Nat) (v : Word) (s : State) : Result :=
  if width = 2 then
    if offset = 0 then issueCode (.opw v) s else .next s
  else .refused (.accessWidth width)

/-- A sensor command byte the host has sent (R84): a byte of R85's set is its instruction; any other byte is sent all the
same, as SEND_CMD sends it. -/
def sendByte (b : Byte) (s : State) : Result :=
  if s.status.busy = true then .next (reject s)
  else
    match decode (.cmd b) with
    | .ok i => exec i s
    | .error _ => exec (.sendCmd b) s

end Sys2Proof.Machine
end

