-- ==== Sys2Proof/Machine/HostRequests.lean ====
section
/-! DEFINITION. The host request port (44_host_requests.md R190 to R200). -/

namespace Sys2Proof.Machine

/-- `CMD_MEASURE_T` (R5, R193). -/
def cmdMeasureTByte : Byte := 0x03

/-- The MEASURE word of a command byte, `0xC000 | c` (R192). -/
def measureWord (c : Byte) : Word := 0xC000 ||| c.zeroExtend 16

/-- `s` with the port at another phase. -/
def setPhase (ph : PortPhase) (s : State) : State := s.withPort { s.port with phase := ph }

/-- The transport presents a request (R190): requests are served one at a time, so it waits its turn. -/
def presentRequest (r : Request) (s : State) : Result :=
  if r.code < 2 ^ s.cfg.params.reqCodeWidth then
    .next (s.withEnv { s.env with inbox := s.env.inbox ++ [r] })
  else .refused (.requestCodeWidth r.code)

/-- `x[REQ] <- none` and `RESP_BUF[0 .. RESP_LEN-1]` handed to the transport (R191), for a response of `len` bytes. -/
def respond (len : Fin 5) (s : State) : State :=
  let s1 := s.withPort { s.port with req := none, respLen := len, phase := .idle }
  let (bytes, s2) := readResponses len.val 0 s1
  s2.withEnv { s2.env with responses := s2.env.responses ++ [bytes] }

/-- `ServeRequest` up to its first wait (R191), with the request taken from the inbox. -/
def beginRequest (r : Request) (rest : List Request) (s : State) : Result :=
  let p := s.cfg.params
  let s1 := (s.withEnv { s.env with inbox := rest }).withPort { s.port with req := some r }
  if r.code = p.reqGetTemp then .next (setPhase (.waitIdle cmdMeasureTByte) s1)
  else if r.code = p.reqGetHum then .next (setPhase (.waitIdle p.cmdMeasureRh) s1)
  else if r.code = p.reqEcho ∨ r.code = p.reqSetStatus ∨ r.code = p.reqGetStatus then
    .refused (.requestOutOfScope r.code)
  else .next (respond 0 s1)

/-- The response bytes of a completed measurement (R192, R65): the first byte read, then the second. -/
def storeResult (w : Word) (s : State) : State :=
  s.withPort { s.port with
    respBuf := Memory.write (Memory.write s.port.respBuf 0 (w.extractLsb' 8 8)) 1 (w.extractLsb' 0 8) }

/-- The last part of `MeasureRequest` (R192): the two bytes of RESULT on OK, else a response of no bytes (R196). -/
def collectResult (s : State) : State :=
  if s.status.outcome = .ok then
    let (w, s1) := readHeld s.result s
    respond 2 (storeResult w s1)
  else respond 0 s

/-- A step of the host request port (log entry 10): it begins the next request, holds at a wait, writes the MEASURE word,
checks ILLEGAL, or collects the result (R191, R192). -/
def servePort (s : State) : Result :=
  match s.port.phase with
  | .idle =>
    match s.env.inbox with
    | [] => .next s
    | r :: rest => beginRequest r rest s
  | .waitIdle c => .next (if s.status.busy = true then s else setPhase (.write c) s)
  | .write c =>
    match portWrite 0 2 (measureWord c) s with
    | .next s1 => .next (setPhase .check s1)
    | .fault f => .fault f
    | .refused r => .refused r
  | .check => .next (if s.status.illegal = true then respond 0 s else setPhase .waitDone s)
  | .waitDone => .next (if s.status.busy = true then s else setPhase .collect s)
  | .collect => .next (collectResult s)

end Sys2Proof.Machine
end

