-- ==== Sys2Proof/Machine/Turns.lean ====
section
/-! DEFINITION. Turns of the agents (60_exceptions.md R223): which one moves is the head of the agenda. -/

namespace Sys2Proof.Machine

/-- The sensor sets its drive (R33). -/
def setDrive (d : Drive) (s : State) : State := s.withEnv { s.env with sensDrv := d }

/-- `s` with other turns to come. -/
def setAgenda (a : List Turn) (s : State) : State := s.withEnv { s.env with agenda := a }

/-- The engine's turn (R8): a step of the running operation; while idle it has none. -/
def engineTurn (s : State) : Result :=
  match s.seq with
  | .idle => .next s
  | .run op _ _ => exec op s

/-- One turn of the agenda. -/
def takeTurn (t : Turn) (s : State) : Result :=
  match t with
  | .sensor d => .next (setDrive d s)
  | .engine => engineTurn s
  | .write offset width v => portWrite offset width v s
  | .read offset width => portRead offset width s
  | .command b => sendByte b s
  | .request r => presentRequest r s
  | .serve => servePort s
  | .reset => .next s.resetEngine

/-- With nothing on the agenda the sensor drives a free value, and the engine goes on; while it is idle the host request
port goes on (R126's weak fairness; log entry 6). -/
def unscheduledTurn (s : State) : Result :=
  let s1 := (setDrive (Config.sensorDrive s.fresh) s).withFresh (s.fresh + 1)
  match s1.seq with
  | .idle => servePort s1
  | .run op _ _ => exec op s1

/-- One step: the next turn of the agenda, or an unscheduled one. -/
def nextTurn (s : State) : Result :=
  match s.env.agenda with
  | [] => unscheduledTurn s
  | t :: rest => takeTurn t (setAgenda rest s)

/-- The turn that offers a code to the engine: an OPW write (R60), or a command byte. -/
def codeTurn : Code → Turn
  | .opw w => .write 0 2 w
  | .cmd b => .command b

/-- `s` with a word of the opcode table as the next turn; a width the table does not have changes nothing. -/
def placeWord (nbits w : Nat) (s : State) : State :=
  match tableCode nbits w with
  | some c => setAgenda (codeTurn c :: s.env.agenda) s
  | none => s

end Sys2Proof.Machine
end

