-- ==== Sys2Proof/Machine/Step.lean ====
section
/-! DEFINITION. The step of the machine, and where it takes its next instruction word from. -/

namespace Sys2Proof.Machine

/-- One step: one turn of one agent (R8, R223). -/
def step (s : State) : Host.Outcome State Fault Refusal := nextTurn s

/-- `s` with an instruction word as the host's very next turn: the machine runs no stored program (R73), so this is where
it takes an instruction from (log entry 12). -/
def State.withFetchWord (s : State) (nbits w : Nat) : State := placeWord nbits w s

end Sys2Proof.Machine
end

