-- ==== Sys2Proof/Machine/Assembler.lean ====
section
/-! DEFINITION. The assembler syntax of 30_encoding.md R93 and the pseudo-operations of R94. -/

namespace Sys2Proof.Machine

/-- The operations that take no operand, by mnemonic (R81, R93). -/
def bareOperations : List (String × Instr) :=
  [("CFG_CLK_IDLE_LOW", .cfgClkIdleLow), ("CFG_DATA_RELEASED", .cfgDataReleased), ("CLK_HIGH", .clkHigh),
   ("CLK_LOW", .clkLow), ("DATA_PULL_LOW", .dataPullLow), ("DATA_RELEASE", .dataRelease),
   ("SAMPLE_DATA", .sampleData), ("DELAY_UNIT", .delayUnit), ("START", .start)]

/-- The pseudo-operations and their expansions (R94). -/
def pseudoOperations (c : Config) : List (String × List Instr) :=
  [("MEASURE_T", [.measure 0x03]), ("MEASURE_RH", [.measure c.params.cmdMeasureRh]),
   ("READ_ACK", [.readByte false]), ("READ_NACK", [.readByte true]),
   ("INIT", [.cfgClkIdleLow, .cfgDataReleased])]

/-- The command-byte names of R93. -/
def commandNames (c : Config) : List (String × Byte) :=
  [("MEASURE_T_CMD", 0x03), ("MEASURE_RH_CMD", c.params.cmdMeasureRh)]

/-- A token is looked up by its characters. -/
def lookupToken {α : Type} (tok : List Char) : List (String × α) → Option α
  | [] => none
  | (name, v) :: rest => if name.toList = tok then some v else lookupToken tok rest

/-- The value of a digit in a base up to 16. -/
def digitValue (base : Nat) (c : Char) : Option Nat :=
  let n := c.toNat
  let v := if 48 ≤ n ∧ n ≤ 57 then n - 48 else if 65 ≤ n ∧ n ≤ 70 then n - 55
    else if 97 ≤ n ∧ n ≤ 102 then n - 87 else 16
  if v < base then some v else none

/-- The value of a string of digits, most significant first. -/
def digitsValue (base : Nat) : Nat → List Char → Option Nat
  | acc, [] => some acc
  | acc, c :: cs =>
    match digitValue base c with
    | some v => digitsValue base (acc * base + v) cs
    | none => none

/-- A number: `0x` hexadecimal, `0b` binary (R6), or decimal. -/
def numberValue : List Char → Option Nat
  | '0' :: 'x' :: c :: cs => digitsValue 16 0 (c :: cs)
  | '0' :: 'b' :: c :: cs => digitsValue 2 0 (c :: cs)
  | c :: cs => digitsValue 10 0 (c :: cs)
  | [] => none

/-- A command-byte operand: a name or a number of 8 bits (R93). -/
def commandOperand (c : Config) (tok : List Char) : Option Byte :=
  match lookupToken tok (commandNames c) with
  | some b => some b
  | none =>
    match numberValue tok with
    | some n => if n < 256 then some (BitVec.ofNat 8 n) else none
    | none => none

/-- The line up to its comment (R93: "A `;` starts a comment"). -/
def dropComment (line : List Char) : List Char := line.takeWhile (fun ch => decide (ch ≠ ';'))

/-- The tokens of a line, split at white space; `cur` is the token being read, last character first. -/
def tokensFrom (cur : List Char) : List Char → List (List Char)
  | [] => if cur = [] then [] else [cur.reverse]
  | ch :: cs =>
    if ch = ' ' ∨ ch = '\t' ∨ ch = '\r' then
      if cur = [] then tokensFrom [] cs else cur.reverse :: tokensFrom [] cs
    else tokensFrom (ch :: cur) cs

/-- The operations of a line's tokens (R93, R94); a line of no tokens has none. -/
def parseTokens (c : Config) : List (List Char) → Option (List Instr)
  | [] => some []
  | [op] =>
    match lookupToken op bareOperations with
    | some i => some [i]
    | none => lookupToken op (pseudoOperations c)
  | [op, arg] =>
    if op = "SEND_CMD".toList then (commandOperand c arg).map (fun b => [.sendCmd b])
    else if op = "MEASURE".toList then (commandOperand c arg).map (fun b => [.measure b])
    else if op = "READ_BYTE".toList then
      if arg = "ACK".toList then some [.readByte false]
      else if arg = "NACK".toList then some [.readByte true]
      else none
    else none
  | _ => none

/-- The operations of a line of assembler text (R93). -/
def assembleLine (c : Config) (line : String) : Option (List Instr) :=
  parseTokens c (tokensFrom [] (dropComment line.toList))

/-- The codes a line assembles to (R93 to R95). -/
def assembleCodes (c : Config) (line : String) : Option (List Code) :=
  (assembleLine c line).map (fun is => is.map encode)

end Sys2Proof.Machine
end

