-- ==== Sys2Proof/Safety.lean ====
section
/-! DEFINITION. What a sound state of the engine is, and runs of one operation, in the terms the statements use. -/

namespace Sys2Proof.Machine

/-- The micro-program of an operation; a sensor command byte is no operation of SEQ (R31, R81). -/
def programOf : Instr → Option MicroProgram
  | .cfgClkIdleLow => some cfgClkIdleLowProgram
  | .cfgDataReleased => some cfgDataReleasedProgram
  | .clkHigh => some clkHighProgram
  | .clkLow => some clkLowProgram
  | .dataPullLow => some dataPullLowProgram
  | .dataRelease => some dataReleaseProgram
  | .sampleData => some sampleDataProgram
  | .delayUnit => some delayUnitProgram
  | .start => some startProgram
  | .sendCmd imm8 => some (sendCmdProgram imm8)
  | .readByte sup => some (readByteProgram sup)
  | .measure imm8 => some (measureProgram imm8)
  | .cmdMeasureT => none
  | .cmdMeasureRh => none
  | .cmdReadStatus => none
  | .cmdWriteStatus => none
  | .cmdSoftReset => none

/-! Runs of one operation. -/

/-- Steps of the engine for instruction `i`, the sensor driving the listed levels, one a step: an accepted operation of N
sub-steps takes N + 2 of them (R90, R91). -/
def runOp (i : Instr) : List Drive → State → Result
  | [], s => .next s
  | d :: ds, s =>
    match exec i (setDrive d s) with
    | .next s1 => runOp i ds s1
    | .fault f => .fault f
    | .refused r => .refused r

/-- No operation runs. -/
def Quiet (s : State) : Prop := s.seq = .idle ∧ s.status.busy = false

/-- No operation runs and both lines are configured: R87 accepts every operation. -/
def Ready (s : State) : Prop := Quiet s ∧ s.status.clkCfg = true ∧ s.status.dataCfg = true

/-- With no operation running and a line not configured, the instruction is rejected (R89): ILLEGAL is its only effect. -/
def RejectedUnconfigured (i : Instr) : Prop :=
  ∀ s : State, Quiet s → (s.status.clkCfg = false ∨ s.status.dataCfg = false) →
    exec i s = .next { s with status := { s.status with illegal := true } }

/-- DATA is RELEASED (R23). -/
def Released (s : State) : Prop := s.lines.dataDir = .inp ∧ s.lines.dataPue = true

/-- The bus is idle (R150): CLK output low, DATA RELEASED. -/
def BusIdle (s : State) : Prop := s.lines.clkDir = .out ∧ s.lines.clkLvl = false ∧ Released s

/-- The drive that presents a bit on DATA (R86). -/
def driveOf (b : Bool) : Drive := if b then .release else .low

/-- The 8 samples of a byte read stand at its sub-steps 4, 9, ..., 39 (R147); the sensor drives there the bits of `v`,
bit 7 first. -/
def Presents (v : Byte) (ds : List Drive) : Prop :=
  ∀ j : Fin 8, ds[5 * j.val + 3]? = some (driveOf (v.getLsbD (7 - j.val)))

/-- A poll's bound lets `m` samples without the level pass before the one that ends it (R145, R146). -/
def Admits (b : Bound) (m : Nat) : Prop := b = .unbounded ∨ ∃ n, b = .samples n ∧ m < n

/-- The state when an operation that was issued in `s` has completed with outcome `o`, having left the line registers at
`l`, the sensor driving `d` at the last step: BUSY and ILLEGAL are 0, SEQ is IDLE, the scratch registers hold no value,
and everything else is as in `s` (R90, R91, R30). -/
def endedWith (o : OpResult) (l : Lines) (d : Drive) (s : State) : State :=
  { s with
    lines := l, seq := .idle, scratch := noScratch
    status := { s.status with busy := false, illegal := false, outcome := o }
    env := { s.env with sensDrv := d } }

/-- `endedWith`, with what the acknowledgment and the last sample left in ACKBIT and SMPBIT. -/
def endedSampled (o : OpResult) (ack smp : Bool) (l : Lines) (d : Drive) (s : State) : State :=
  { endedWith o l d s with
    status := { s.status with busy := false, illegal := false, outcome := o, ackBit := .val ack, smpBit := .val smp } }

/-- The line registers a transaction operation leaves (R150): CLK low, DATA RELEASED, CLK's direction as it was. -/
def idleLines (s : State) : Lines :=
  { s.lines with clkLvl := false, dataDir := .inp, dataPue := true }

/-- The sub-step that SEQ names next, if an operation runs and has not raised. -/
def nextAct (s : State) : Option Act :=
  match s.seq with
  | .idle => none
  | .run op k stage =>
    match stage with
    | .raised _ => none
    | _ =>
      match programOf op with
      | some p => p.steps[k]?.map SubStep.act
      | none => none

/-- Turns in which the sensor sets a drive and the engine then takes a step. -/
def drivenTurns (ds : List Drive) : List Turn := ds.flatMap (fun d => [.sensor d, .engine])

/-- The turns in which a request is presented, begun, finds the engine idle, has its word written, and is checked: the
sub-steps of ServeRequest and MeasureRequest up to the second wait (R191, R192; log entry 10). -/
def requestTurns (r : Request) : List Turn := [Turn.request r, Turn.serve, Turn.serve, Turn.serve, Turn.serve]

/-- A ready poll's drives: `m` samples low, then one high (R145). -/
def readyDrives (m : Nat) : List Drive := List.replicate m Drive.low ++ [Drive.release]

/-- A conversion poll's drives: `n` samples high, then one low (R146). -/
def conversionDrives (n : Nat) : List Drive := List.replicate n Drive.release ++ [Drive.low]

/-- A MEASURE's drives: `ds` up to the ready poll, the two polls, the two byte reads, and the completion (R171). -/
def measureDrives (ds : List Drive) (m n : Nat) (r1 r2 : List Drive) (d : Drive) : List Drive :=
  ds ++ readyDrives m ++ conversionDrives n ++ r1 ++ r2 ++ [d]

/-! Counts over a micro-program (R144, R147, R176, R258). -/

/-- How many sub-steps of a list satisfy a test. -/
def countSteps (test : Act → Bool) (l : List SubStep) : Nat := (l.filter (fun st => test st.act)).length

/-- Delay units. -/
def delayUnits (p : MicroProgram) : Nat := countSteps (fun a => decide (a = .delay)) p.steps

/-- Clock pulses: rising edges. -/
def clockPulses (p : MicroProgram) : Nat := countSteps (fun a => decide (a = .clkLevel true)) p.steps

/-- Samples outside polls. -/
def plainSamples (p : MicroProgram) : Nat := countSteps (fun a => decide (a = .sample)) p.steps

/-! The invariant. -/

/-- The scratch register an assignment gives a first value. -/
def firstWrites : Upd → List ScratchReg
  | .loadCmd _ => [.cmd]
  | .shiftCmd => []
  | .clearBitCnt => [.bitCnt]
  | .incBitCnt => []
  | .ackFromSample => []
  | .clearAcc => [.acc]
  | .shiftInSample => []
  | .rdataFromAcc => []
  | .clearPollCnt => [.pollCnt]
  | .resultFromBytes => []
  | .clkCfgDone => []
  | .dataCfgDone => []

/-- Whether a scratch register holds a value (R30). -/
def Scratch.holds (sc : Scratch) : ScratchReg → Bool
  | .cmd => sc.cmd.isSome
  | .acc => sc.acc.isSome
  | .bitCnt => sc.bitCnt.isSome
  | .pollCnt => sc.pollCnt.isSome

/-- The scratch registers that the assignments of these sub-steps have given a value. -/
def writtenBy (sts : List SubStep) : List ScratchReg := sts.flatMap (fun st => st.pre.flatMap firstWrites)

/-- How many leading sub-steps have had their assignments done: a poll that has begun has had its own. -/
def doneSteps (k : Nat) : Stage → Nat
  | .fresh => k
  | .looping => k + 1
  | .raised _ => k

/-- R30: every scratch register that the operation has written holds a value. -/
def scratchReady (p : MicroProgram) (k : Nat) (stage : Stage) (sc : Scratch) : Bool :=
  (writtenBy (p.steps.take (doneSteps k stage))).all sc.holds

/-- DATA between primitives, once configured: DRIVEN_LOW or RELEASED (R23, C2). -/
def atBoundary (s : State) : Prop :=
  s.status.dataCfg = true → (s.lines.dataPue = true ↔ s.lines.dataDir = .inp)

/-- What holds of DATA before a sub-step: a primitive's second sub-step comes after its first (R102, R103); any other
stands at a boundary. -/
def dataReady (s : State) : Option Act → Prop
  | some .dataDirOut => s.lines.dataPue = false
  | some .dataPueOn => s.lines.dataDir = .inp
  | some .dataConfigure => s.lines.dataDir = .inp
  | some .bitSecond =>
    ∀ c, s.scratch.cmd = some c → if c.getLsbD 7 then s.lines.dataDir = .inp else s.lines.dataPue = false
  | _ => atBoundary s

/-- What holds of the running operation (R30, R31). -/
def seqReady (s : State) : Prop :=
  match s.seq with
  | .idle => s.scratch = noScratch ∧ atBoundary s
  | .run op k stage =>
    ∃ p, programOf op = some p ∧ k ≤ p.steps.length ∧ scratchReady p k stage s.scratch = true ∧
      (match stage with
        | .raised o => (o = .nack ∨ o = .timeout) ∧ atBoundary s
        | .looping =>
          (∃ st, p.steps[k]? = some st ∧ (st.act = .pollReady ∨ st.act = .pollConversion)) ∧ atBoundary s
        | .fresh => dataReady s (p.steps[k]?.map SubStep.act))

/-- A configuration flag is assigned exactly from sub-step 2 of its operation on (R100, R101): the operation has completed
since the last reset (R25), or waits for its completion step only. So while BUSY is 0 the flag that R89 tests is the one
a read shows. -/
def configReady (s : State) : Prop :=
  (s.status.clkCfg = true ↔ s.status.clkCfgDone = true ∨ s.seq = .run .cfgClkIdleLow 2 .fresh) ∧
  (s.status.dataCfg = true ↔ s.status.dataCfgDone = true ∨ s.seq = .run .cfgDataReleased 2 .fresh)

/-- What holds of the host request port (R36, R64, R199): a response of 2 bytes has both, and no other length is
produced. -/
def portReady (q : RequestPort) : Prop :=
  (q.req = none ↔ q.phase = .idle) ∧ Memory.wf q.respBuf = true ∧
    (q.respLen = 0 ∨ (q.respLen = 2 ∧ q.respBuf.read 0 ≠ none ∧ q.respBuf.read 1 ≠ none))

/-- The engine's invariant: BUSY and SEQ agree (R31), OUTCOME is NONE while an operation runs (R27), DATA is never OUT
with the pull-up on (R22, R23), CLK stays an output once configured (R24), DLY_COUNT is the calibrated count (R35), the
scratch registers hold what the running operation has written (R30), and the request port is sound (R36). -/
structure EngineInv (s : State) : Prop where
  busy_iff : s.status.busy = true ↔ s.seq ≠ .idle
  running_none : s.status.busy = true → s.status.outcome = .none
  open_drain : ¬ (s.lines.dataDir = .out ∧ s.lines.dataPue = true)
  clk_out : s.status.clkCfg = true → s.lines.clkDir = .out
  calibrated : s.dlyCount = calibrate s.cfg
  seq_ready : seqReady s
  config_ready : configReady s
  port_ready : portReady s.port

end Sys2Proof.Machine
end

