-- ==== Sys2Proof/Certificates/Slice0/Obligations.lean ====
section
/-! DEFINITION. The statements for the provers. Rule numbers are those of spec/. -/

open Sys2Proof Sys2Proof.Machine

/-! Encoding. -/

/-- R95's examples: the accepted words and the rejected ones, each with its reason. -/
def Obligations.EncodingExamplesDecode : Prop :=
  decode (.opw 0x1000) = .ok .cfgClkIdleLow ∧ decode (.opw 0x2000) = .ok .cfgDataReleased ∧
  decode (.opw 0x3000) = .ok .clkHigh ∧ decode (.opw 0x4000) = .ok .clkLow ∧
  decode (.opw 0x5000) = .ok .dataPullLow ∧ decode (.opw 0x6000) = .ok .dataRelease ∧
  decode (.opw 0x7000) = .ok .sampleData ∧ decode (.opw 0x8000) = .ok .delayUnit ∧
  decode (.opw 0x9000) = .ok .start ∧ decode (.opw 0xA003) = .ok (.sendCmd 0x03) ∧
  decode (.opw 0xB000) = .ok (.readByte false) ∧ decode (.opw 0xB100) = .ok (.readByte true) ∧
  decode (.opw 0xC003) = .ok (.measure 0x03) ∧ decode (.opw 0xC005) = .ok (.measure 0x05) ∧
  decode (.opw 0x0000) = .error .reservedOp ∧ decode (.opw 0x9001) = .error .unusedImm8 ∧
  decode (.opw 0xB001) = .error .unusedImm8 ∧ decode (.opw 0xA103) = .error .unusedS ∧
  decode (.opw 0x3200) = .error .reservedBits ∧ decode (.opw 0xF000) = .error .reservedOp

/-- Decoding an encoded instruction gives it back, with every operand at every value its field admits. -/
def Obligations.DecodeOfEncodeIsTheInstruction : Prop :=
  ∀ i : Instr, decode (encode i) = .ok i

/-- The other direction: a code that decodes has no other spelling. -/
def Obligations.EncodeOfDecodeIsTheCode : Prop :=
  ∀ (c : Code) (i : Instr), decode c = .ok i → encode i = c

/-- R83: a word is rejected exactly on its four conditions, and every other word is the operation of R81 with S = w[8] and
IMM8 = w[7:0]. The bits are taken by division, not by the decoder's own field reader. -/
def Obligations.DecodingRejectsOnFourConditions : Prop :=
  ∀ w : Word,
    let op := w.toNat / 4096
    let rsv := w.toNat / 512 % 8
    let sup := w.toNat / 256 % 2
    let imm := w.toNat % 256
    ((∃ r, decode (.opw w) = .error r) ↔
      ((op = 0 ∨ op = 13 ∨ op = 14 ∨ op = 15) ∨ rsv ≠ 0 ∨ (op ≠ 11 ∧ sup ≠ 0) ∨
        ((op ≠ 10 ∧ op ≠ 12) ∧ imm ≠ 0))) ∧
    (∀ i, decode (.opw w) = .ok i →
      (op = 1 ∧ i = .cfgClkIdleLow) ∨ (op = 2 ∧ i = .cfgDataReleased) ∨ (op = 3 ∧ i = .clkHigh) ∨
      (op = 4 ∧ i = .clkLow) ∨ (op = 5 ∧ i = .dataPullLow) ∨ (op = 6 ∧ i = .dataRelease) ∨
      (op = 7 ∧ i = .sampleData) ∨ (op = 8 ∧ i = .delayUnit) ∨ (op = 9 ∧ i = .start) ∨
      (op = 10 ∧ i = .sendCmd (BitVec.ofNat 8 imm)) ∨ (op = 11 ∧ i = .readByte (decide (sup = 1))) ∨
      (op = 12 ∧ i = .measure (BitVec.ofNat 8 imm)))

/-- A byte is a command exactly when it is one of the five of R85, and each has the prefix 0b000. The spec's source gives
0x03 alone: R85 takes 0x05, 0x06, 0x07 and 0x1E from general knowledge and R84 infers the prefix, and that the decoder
knows these five, 0x05 whatever CMD_MEASURE_RH is, is the model's choice (log entry 8). -/
def Obligations.FiveCommandBytes : Prop :=
  (∀ b : Byte, (∃ i, decode (.cmd b) = .ok i) ↔ commandNamed b = true) ∧
  (∀ (b : Byte) (i : Instr), decode (.cmd b) = .ok i → commandOf i = some b ∧ b.toNat / 32 = 0)

/-- R94's pseudo-operations and R93's examples, as assembled; MEASURE_RH takes its byte from the configuration. -/
def Obligations.PseudoOperationsExpand : Prop :=
  ∀ c : Config,
    assembleCodes c "READ_ACK" = some [.opw 0xB000] ∧ assembleCodes c "READ_NACK" = some [.opw 0xB100] ∧
    assembleCodes c "INIT" = some [.opw 0x1000, .opw 0x2000] ∧ assembleLine c "MEASURE_T" = some [.measure 0x03] ∧
    assembleLine c "MEASURE_RH" = some [.measure c.params.cmdMeasureRh] ∧
    assembleLine c "SEND_CMD 0x03" = some [.sendCmd 0x03] ∧ assembleLine c "READ_BYTE NACK" = some [.readByte true]

/-! Issue, rejection, completion. -/

/-- R87: an OPW write is rejected while BUSY = 1, else rejected where it decodes to nothing (R88), else rejected where
the operation is not a configuration operation and a line is not configured (R89), else issued (R90). A rejection
writes ILLEGAL and nothing else. The premise is R31. -/
def Obligations.OpwWriteIsHandledInOrder : Prop :=
  ∀ (s : State) (w : Word), (s.status.busy = true ↔ s.seq ≠ .idle) →
    portWrite 0 2 w s =
      (let rejected := { s with status := { s.status with illegal := true } }
       if s.status.busy = true then .next rejected
       else
         match decode (.opw w) with
         | .error _ => .next rejected
         | .ok i =>
           if i ≠ .cfgClkIdleLow ∧ i ≠ .cfgDataReleased ∧ (s.status.clkCfg = false ∨ s.status.dataCfg = false) then
             .next rejected
           else
             .next { s with
               status := { s.status with busy := true, illegal := false, outcome := .none }
               seq := .run i 0 .fresh })

/-- R215, cause 1: the running operation goes on unchanged after an ignored word, and ILLEGAL stays 1. -/
def Obligations.IgnoredWordLeavesTheOperationRunning : Prop :=
  ∀ (i op : Instr) (k : Nat) (stage : Stage) (s t : State), s.seq = .run op k stage → exec i s = .next t →
    exec i { s with status := { s.status with illegal := true } } =
      .next { t with status := { t.status with illegal := true } }

/-- R89: before both lines are configured every instruction but the two configuration operations is rejected, with
ILLEGAL as the only change; R87 accepts those two. For the sensor command bytes this is the model's choice (log
entry 8). -/
def Obligations.UnconfiguredOperationsAreRejected : Prop :=
  ∀ (i : Instr) (s : State), Quiet s → (s.status.clkCfg = false ∨ s.status.dataCfg = false) →
    exec i s =
      if i = .cfgClkIdleLow ∨ i = .cfgDataReleased then
        .next { s with
          status := { s.status with busy := true, illegal := false, outcome := .none }
          seq := .run i 0 .fresh }
      else .next { s with status := { s.status with illegal := true } }

/-- R90: with no operation running and both lines configured, an instruction is issued; a sensor command byte as the
SEND_CMD that sends it (the model's choice, log entry 8). No line changes. -/
def Obligations.ReadyEngineIssues : Prop :=
  ∀ (i : Instr) (s : State), Ready s →
    ∃ op, (programOf i ≠ none → op = i) ∧ (∀ c, programOf i = none → commandOf i = some c → op = .sendCmd c) ∧
      exec i s = .next { s with
        status := { s.status with busy := true, illegal := false, outcome := .none }
        seq := .run op 0 .fresh }

/-- A step runs the decoded instruction, and goes on with the running one: a write to OPW, a command byte, an engine
turn, an unscheduled turn, and the placed word. The agenda, the command turn and the unscheduled turn are the
model's (log entries 1, 6, 8, 12). -/
def Obligations.StepRunsTheDecodedInstruction : Prop :=
  (∀ (s : State) (w : Word) (i : Instr) (rest : List Turn), s.env.agenda = .write 0 2 w :: rest →
    s.status.busy = false → decode (.opw w) = .ok i → step s = exec i (setAgenda rest s)) ∧
  (∀ (s : State) (b : Byte) (i : Instr) (rest : List Turn), s.env.agenda = .command b :: rest →
    s.status.busy = false → decode (.cmd b) = .ok i → step s = exec i (setAgenda rest s)) ∧
  (∀ (s : State) (op : Instr) (k : Nat) (stage : Stage) (rest : List Turn), s.env.agenda = .engine :: rest →
    s.seq = .run op k stage → step s = exec op (setAgenda rest s)) ∧
  (∀ (s : State) (op : Instr) (k : Nat) (stage : Stage), s.env.agenda = [] → s.seq = .run op k stage →
    step s = exec op ((setDrive (Config.sensorDrive s.fresh) s).withFresh (s.fresh + 1))) ∧
  (∀ (s : State) (w : Word) (i : Instr), s.status.busy = false → decode (.opw w) = .ok i →
    step (s.withFetchWord 16 w.toNat) = exec i s)

/-- R210, R91: a raise is followed by the completion step, which writes OUTCOME and BUSY; no line changes. That the
scratch registers are emptied in that step is read from R30 (log entry 5). -/
def Obligations.RaisedOperationCompletes : Prop :=
  ∀ (op : Instr) (k : Nat) (o : OpResult) (s : State), programOf op ≠ none → s.seq = .run op k (.raised o) →
    exec op s = .next { s with
      status := { s.status with outcome := o, busy := false }, seq := .idle, scratch := noScratch }

/-- R212: READ_BYTE, START, the line operations and DELAY_UNIT never raise: each step goes on to the next index, or
completes with OK. -/
def Obligations.PlainOperationsCompleteWithOk : Prop :=
  ∀ (op : Instr) (k : Nat) (stage : Stage) (s t : State), programOf op ≠ none → commandOf op = none →
    s.seq = .run op k stage → (∀ o, stage ≠ .raised o) → exec op s = .next t →
    (t.seq = .idle ∧ t.status.outcome = .ok) ∨ t.seq = .run op (k + 1) .fresh

/-! The line controller. -/

/-- R100, R25: the code, and in every state with no operation running: level first, then direction and CLKCFG; OUTCOME is OK
with the completion, and CLKCFG reads 1 from then on. Nothing else changes. That CLKCFG is assigned in sub-step 2 and
reads 1 from the completion on is how the model reads R100 and R25 together (log entry 9). -/
def Obligations.CfgClkIdleLowConfiguresClk : Prop :=
  decode (.opw 0x1000) = .ok .cfgClkIdleLow ∧
  ∀ (s : State) (d0 d1 d2 d3 : Drive), Quiet s →
    (∃ t, runOp .cfgClkIdleLow [d0, d1] s = .next t ∧ t.lines = { s.lines with clkLvl := false }) ∧
    (∃ t, runOp .cfgClkIdleLow [d0, d1, d2] s = .next t ∧ t.lines = { s.lines with clkLvl := false, clkDir := .out } ∧
      t.status.busy = true ∧ t.status.clkCfg = true ∧ t.status.clkCfgDone = s.status.clkCfgDone) ∧
    runOp .cfgClkIdleLow [d0, d1, d2, d3] s = .next
      { endedWith .ok { s.lines with clkLvl := false, clkDir := .out } d3 s with
        status := { s.status with
          busy := false, illegal := false, outcome := .ok, clkCfg := true, clkCfgDone := true } }

/-- R101, R25: the code, and in every state with no operation running: direction first, then the pull-up and DATACFG;
OUTCOME is OK with the completion, and DATACFG reads 1 from then on. Nothing else changes. That DATACFG is assigned in
sub-step 2 and reads 1 from the completion on is how the model reads R101 and R25 together (log entry 9). -/
def Obligations.CfgDataReleasedConfiguresData : Prop :=
  decode (.opw 0x2000) = .ok .cfgDataReleased ∧
  ∀ (s : State) (d0 d1 d2 d3 : Drive), Quiet s →
    (∃ t, runOp .cfgDataReleased [d0, d1] s = .next t ∧ t.lines = { s.lines with dataDir := .inp }) ∧
    (∃ t, runOp .cfgDataReleased [d0, d1, d2] s = .next t ∧ t.lines = { s.lines with dataDir := .inp, dataPue := true } ∧
      t.status.busy = true ∧ t.status.dataCfg = true ∧ t.status.dataCfgDone = s.status.dataCfgDone) ∧
    runOp .cfgDataReleased [d0, d1, d2, d3] s = .next
      { endedWith .ok { s.lines with dataDir := .inp, dataPue := true } d3 s with
        status := { s.status with
          busy := false, illegal := false, outcome := .ok, dataCfg := true, dataCfgDone := true } }

/-- R108, R109: the codes; rejected before configuration; else CLK_HIGH and CLK_LOW write CLK.LVL, the bus follows where
CLK is an output, and they complete with OK. Nothing else changes. -/
def Obligations.ClkHighAndClkLowDriveClk : Prop :=
  decode (.opw 0x3000) = .ok .clkHigh ∧ decode (.opw 0x4000) = .ok .clkLow ∧
  RejectedUnconfigured .clkHigh ∧ RejectedUnconfigured .clkLow ∧
  (∀ (b : Bool) (s : State), s.lines.clkDir = .out → busClk (endedWith .ok { s.lines with clkLvl := b } .low s) =
    (b, endedWith .ok { s.lines with clkLvl := b } .low s)) ∧
  ∀ (s : State) (d0 d1 d2 : Drive), Ready s →
    runOp .clkHigh [d0, d1, d2] s = .next (endedWith .ok { s.lines with clkLvl := true } d2 s) ∧
    runOp .clkLow [d0, d1, d2] s = .next (endedWith .ok { s.lines with clkLvl := false } d2 s)

/-- R110: the code; rejected before configuration; else the pull-up goes off, then the line turns to output; DATA ends
DRIVEN_LOW. Nothing else changes. -/
def Obligations.DataPullLowPullsInOrder : Prop :=
  decode (.opw 0x5000) = .ok .dataPullLow ∧ RejectedUnconfigured .dataPullLow ∧
  ∀ (s : State) (d0 d1 d2 d3 : Drive), Ready s →
    (∃ t, runOp .dataPullLow [d0, d1] s = .next t ∧ t.lines = { s.lines with dataPue := false }) ∧
    (∃ t, runOp .dataPullLow [d0, d1, d2] s = .next t ∧
      t.lines = { s.lines with dataPue := false, dataDir := .out } ∧ busData t = (false, t)) ∧
    runOp .dataPullLow [d0, d1, d2, d3] s =
      .next (endedWith .ok { s.lines with dataPue := false, dataDir := .out } d3 s)

/-- R111, R103: the code; rejected before configuration; else the line turns to input, then the pull-up goes on; DATA ends
RELEASED, high unless the sensor pulls it low. Nothing else changes. -/
def Obligations.DataReleaseReleasesInOrder : Prop :=
  decode (.opw 0x6000) = .ok .dataRelease ∧ RejectedUnconfigured .dataRelease ∧
  ∀ (s : State) (d0 d1 d2 d3 : Drive), Ready s →
    (∃ t, runOp .dataRelease [d0, d1] s = .next t ∧ t.lines = { s.lines with dataDir := .inp }) ∧
    (∃ t, runOp .dataRelease [d0, d1, d2] s = .next t ∧
      t.lines = { s.lines with dataDir := .inp, dataPue := true } ∧ busData t = (decide (d2 = .release), t)) ∧
    runOp .dataRelease [d0, d1, d2, d3] s =
      .next (endedWith .ok { s.lines with dataDir := .inp, dataPue := true } d3 s)

/-- R112, R107: the code; rejected before configuration; else SMPBIT is a draw while the engine drives DATA or while the
line floats, 0 while the sensor pulls it low, 1 while a pull-up holds it. Nothing else changes. -/
def Obligations.SampleDataReadsTheLine : Prop :=
  decode (.opw 0x7000) = .ok .sampleData ∧ RejectedUnconfigured .sampleData ∧
  ∀ (s : State) (d0 d1 d2 : Drive), Ready s →
    let drawn := s.lines.dataDir = .out ∨
      (d1 = .release ∧ s.lines.dataPue = false ∧ s.cfg.params.extPullup = false)
    (drawn → runOp .sampleData [d0, d1, d2] s = .next
      { endedWith .ok s.lines d2 s with
        status := { s.status with busy := false, illegal := false, outcome := .ok,
                                  smpBit := .val (Config.drawBit s.fresh) }
        fresh := s.fresh + 1 }) ∧
    (¬ drawn → runOp .sampleData [d0, d1, d2] s = .next
      { endedWith .ok s.lines d2 s with
        status := { s.status with busy := false, illegal := false, outcome := .ok,
                                  smpBit := .val (decide (d1 = .release)) } })

/-- R34: the level on each line. -/
def Obligations.BusLevelsFollowTheLineRegisters : Prop :=
  ∀ s : State,
    ((s.lines.dataDir = .out ∨ s.env.sensDrv = .low) → busData s = (false, s)) ∧
    (s.lines.dataDir = .inp → s.env.sensDrv = .release → (s.lines.dataPue = true ∨ s.cfg.params.extPullup = true) →
      busData s = (true, s)) ∧
    (s.lines.dataDir = .inp → s.env.sensDrv = .release → s.lines.dataPue = false → s.cfg.params.extPullup = false →
      busData s = (Config.drawBit s.fresh, { s with fresh := s.fresh + 1 })) ∧
    (s.lines.clkDir = .out → busClk s = (s.lines.clkLvl, s)) ∧
    (s.lines.clkDir = .inp → busClk s = (Config.drawBit s.fresh, { s with fresh := s.fresh + 1 }))

/-! The timing calibrator. -/

/-- R123, R122: the code; rejected before configuration; else DELAY_UNIT changes no line and no field but OUTCOME (BUSY and
ILLEGAL are those of R90, R91). Its duration is out of the model (R126). -/
def Obligations.DelayUnitChangesNoLine : Prop :=
  decode (.opw 0x8000) = .ok .delayUnit ∧ RejectedUnconfigured .delayUnit ∧
  ∀ (s : State) (d0 d1 d2 : Drive), Ready s →
    runOp .delayUnit [d0, d1, d2] s = .next (endedWith .ok s.lines d2 s)

/-- R121: a reset writes DLY_COUNT = max(1, ceil(T * F / (10^9 * C))), the least count of at least 1 whose iterations last
T_UNIT_NS; parameters whose count exceeds 0xFFFF are refused. -/
def Obligations.CalibratedCountIsTheLeastThatLasts : Prop :=
  (∀ s : State, s.resetEngine.dlyCount = calibrate s.cfg) ∧
  (∀ p : Params, 0xFFFF < delayCount p.tUnitNs p.fCpuHz p.cyclesPerIter → Config.ofParams? p = none) ∧
  ∀ c : Config,
    let n := (calibrate c).toNat
    let p := c.params
    1 ≤ n ∧ p.tUnitNs * p.fCpuHz ≤ n * (1000000000 * p.cyclesPerIter) ∧
    (∀ m, 1 ≤ m → p.tUnitNs * p.fCpuHz ≤ m * (1000000000 * p.cyclesPerIter) → n ≤ m)

/-! Transactions. -/

/-- R137: the code; rejected before configuration; else START takes 16 steps, ends with CLK low and DATA RELEASED whatever the sensor does and wherever the lines
stood, and completes with OK. Nothing else changes. -/
def Obligations.StartLeavesTheIdleBus : Prop :=
  decode (.opw 0x9000) = .ok .start ∧ RejectedUnconfigured .start ∧
  ∀ (s : State) (ds : List Drive) (d : Drive), Ready s → ds.length = 15 →
    runOp .start (ds ++ [d]) s = .next (endedWith .ok (idleLines s) d s)

/-- R138: from idle with the sensor releasing, the bus and the engine's DATA state after each line primitive. -/
def Obligations.StartHasTheStartShape : Prop :=
  ∀ s : State, Ready s → BusIdle s →
    ∀ x ∈ [(2, true, Dir.inp, true), (5, true, Dir.out, false), (7, false, Dir.out, false), (9, true, Dir.out, false),
           (12, true, Dir.inp, true), (14, false, Dir.inp, true)],
      ∃ t, runOp .start (List.replicate x.1 .release) s = .next t ∧ busClk t = (x.2.1, t) ∧
        t.lines.dataDir = x.2.2.1 ∧ t.lines.dataPue = x.2.2.2 ∧ busData t = (x.2.2.2, t)

/-- R141: at each of the 8 bit pulses' rising edges the engine presents `cmd[7 - j]`: RELEASED for 1, DRIVEN_LOW for 0;
CLK is low in the step before. For SEND_CMD, MEASURE and the command bytes. For the command bytes this is the
model's choice (log entry 8). -/
def Obligations.CommandBitsAreSentMsbFirst : Prop :=
  ∀ (i : Instr) (c : Byte) (s : State) (j : Nat) (ds : List Drive) (d : Drive), commandOf i = some c → Ready s →
    j < 8 → ds.length = 18 + 6 * j →
    ∃ t u, runOp i ds s = .next t ∧ t.lines.clkLvl = false ∧ runOp i (ds ++ [d]) s = .next u ∧
      u.lines.clkLvl = true ∧
      (if c.getLsbD (7 - j) then u.lines.dataDir = .inp ∧ u.lines.dataPue = true
        else u.lines.dataDir = .out ∧ u.lines.dataPue = false)

/-- R142, R144: a sensor that leaves DATA high at the ninth pulse's sample (sub-step 68) gives NACK after 69 sub-steps,
for SEND_CMD, MEASURE and the command bytes; ACKBIT and SMPBIT are 1; RDATA and RESULT are as they were. For the
command bytes this is the model's choice (log entry 8). -/
def Obligations.UnacknowledgedCommandEndsWithNack : Prop :=
  ∀ (i : Instr) (c : Byte) (s : State) (ds : List Drive) (d : Drive), commandOf i = some c → Ready s →
    ds.length = 70 → ds[68]? = some .release →
    runOp i (ds ++ [d]) s = .next (endedSampled .nack true true (idleLines s) d s)

/-- R139, R143, R145: acknowledged at sub-step 68, `m` poll samples low and then one high, within the bound: OK, for
SEND_CMD and the command bytes (the effect of those is the model's choice, log entry 8). Nothing else changes. -/
def Obligations.AcknowledgedCommandEndsWithOk : Prop :=
  ∀ (i : Instr) (c : Byte) (s : State) (ds : List Drive) (m : Nat) (d : Drive), commandOf i = some c →
    (∀ b, i ≠ .measure b) → Ready s → ds.length = 70 → ds[68]? = some .low → Admits s.cfg.params.readyBound m →
    runOp i (ds ++ readyDrives m ++ [d]) s =
      .next (endedSampled .ok false true (idleLines s) d s)

/-- R143, R145: a bounded ready poll whose `n` samples all read low ends with TIMEOUT, for SEND_CMD, MEASURE and the
command bytes; SMPBIT is 0; RDATA and RESULT are as they were. For the command bytes this is the model's choice (log
entry 8). -/
def Obligations.ExpiredReadyPollEndsWithTimeout : Prop :=
  ∀ (i : Instr) (c : Byte) (s : State) (ds : List Drive) (n : Nat) (d : Drive), commandOf i = some c → Ready s →
    ds.length = 70 → ds[68]? = some .low → s.cfg.params.readyBound = .samples n →
    runOp i (ds ++ List.replicate n Drive.low ++ [d]) s =
      .next (endedSampled .timeout false false (idleLines s) d s)

/-- R147, R148: READ_BYTE with DATA RELEASED (or held by an external pull-up) at entry gives, for every byte the sensor
presents, that byte in RDATA, 49 or 47 sub-steps, OK. Nothing else changes. -/
def Obligations.ReadByteReturnsThePresentedByte : Prop :=
  ∀ (sup : Bool) (v : Byte) (s : State) (ds : List Drive) (d0 d : Drive), Ready s → s.lines.dataDir = .inp →
    (s.lines.dataPue = true ∨ s.cfg.params.extPullup = true) → ds.length = (if sup then 47 else 49) →
    Presents v ds →
    runOp (.readByte sup) (d0 :: (ds ++ [d])) s = .next
      { endedWith .ok (idleLines s) d s with
        status := { s.status with busy := false, illegal := false, outcome := .ok, smpBit := .val (v.getLsbD 0) }
        rdata := .val v }

/-- R148, R255: READ_BYTE issued while DATA is DRIVEN_LOW takes 8 draws, the first in bit 7, and ends with DATA RELEASED
and OK. -/
def Obligations.ReadByteWhileDrivingDraws : Prop :=
  ∀ (sup : Bool) (s : State) (ds : List Drive) (d0 d : Drive), Ready s → s.lines.dataDir = .out →
    ds.length = (if sup then 47 else 49) →
    ∃ t v, runOp (.readByte sup) (d0 :: (ds ++ [d])) s = .next t ∧ t.rdata = .val v ∧
      (∀ j : Fin 8, v.getLsbD (7 - j.val) = Config.drawBit (s.fresh + j.val)) ∧
      t.lines = idleLines s ∧ t.status.outcome = .ok ∧ t.seq = .idle ∧ t.result = s.result ∧
      t.fresh = s.fresh + 8

/-- R149: after the 8th bit the engine drives DATA low only with s = 0, from sub-step 42 to sub-step 46, a span with one
rising edge (sub-step 44) and one falling edge (sub-step 46); with s = 1 never, the edges two sub-steps earlier. -/
def Obligations.ByteReadAcknowledgesForOneClockPulse : Prop :=
  ∀ (sup : Bool) (s : State) (ds : List Drive) (n : Nat), Ready s → Released s → ds.length = n + 1 → 40 ≤ n →
    n ≤ (if sup then 47 else 49) →
    ∃ t, runOp (.readByte sup) ds s = .next t ∧
      (t.lines.dataDir = .out ↔ sup = false ∧ 42 ≤ n ∧ n ≤ 46) ∧ (t.lines.dataDir = .out → t.lines.dataPue = false) ∧
      (t.lines.clkLvl = true ↔ (if sup then n = 42 ∨ n = 43 else n = 44 ∨ n = 45))

/-- R255, R107: no micro-program of SEND_CMD, MEASURE or a command byte comes to a sample or a poll while the engine
drives DATA: at each one DATA is RELEASED, wherever the lines stood at entry. For the command bytes this is the
model's choice (log entry 8). -/
def Obligations.CommandProgramsSampleOnlyWhileReleased : Prop :=
  ∀ (i : Instr) (c : Byte) (s t : State) (ds : List Drive), commandOf i = some c → Ready s →
    runOp i ds s = .next t →
    (nextAct t = some .sample ∨ nextAct t = some .pollReady ∨ nextAct t = some .pollConversion) → Released t

/-- R150, R177: every completion of START, SEND_CMD, READ_BYTE, MEASURE or a command byte, whatever its outcome, leaves
CLK low and DATA RELEASED. For the command bytes this is the model's choice (log entry 8). -/
def Obligations.TransactionsLeaveTheBusIdle : Prop :=
  ∀ (i : Instr) (s t : State) (ds : List Drive),
    (i = .start ∨ (∃ b, i = .readByte b) ∨ (∃ c, commandOf i = some c)) → Ready s → ds ≠ [] →
    runOp i ds s = .next t → t.seq = .idle → t.lines.clkLvl = false ∧ Released t

/-! Polls. -/

/-- R145, R146, R214: an unbounded poll whose samples never show its level goes on at its index for ever: BUSY and OUTCOME
stay, no line changes, no result is written. The first clause is the ready poll, the second the conversion poll. -/
def Obligations.UnboundedPollsGoOnForEver : Prop :=
  (∀ (op : Instr) (p : MicroProgram) (k : Nat) (sub : SubStep) (s : State) (ds : List Drive),
    programOf op = some p → p.steps[k]? = some sub → sub.act = .pollReady → s.seq = .run op k .fresh →
    s.lines.dataDir = .inp → s.cfg.params.readyBound = .unbounded → ds ≠ [] → (∀ d ∈ ds, d = .low) →
    ∃ t, runOp op ds s = .next t ∧ t.seq = .run op k .looping ∧ t.lines = s.lines ∧
      t.status = { s.status with smpBit := .val false } ∧ t.rdata = s.rdata ∧ t.result = s.result) ∧
  (∀ (op : Instr) (p : MicroProgram) (k : Nat) (sub : SubStep) (s : State) (ds : List Drive),
    programOf op = some p → p.steps[k]? = some sub → sub.act = .pollConversion → s.seq = .run op k .fresh →
    Released s → s.cfg.params.convBound = .unbounded → ds ≠ [] → (∀ d ∈ ds, d = .release) →
    ∃ t, runOp op ds s = .next t ∧ t.seq = .run op k .looping ∧ t.lines = s.lines ∧
      t.status = { s.status with smpBit := .val true } ∧ t.rdata = s.rdata ∧ t.result = s.result)

/-- R213: with both bounds UNBOUNDED no step raises TIMEOUT or completes with it. -/
def Obligations.TimeoutNeedsABound : Prop :=
  ∀ s t : State, s.cfg.params.readyBound = .unbounded → s.cfg.params.convBound = .unbounded →
    s.status.outcome ≠ .timeout → (∀ op k, s.seq ≠ .run op k (.raised .timeout)) → step s = .next t →
    t.status.outcome ≠ .timeout ∧ ∀ op k, t.seq ≠ .run op k (.raised .timeout)

/-! Measurement. -/

/-- R171, R173: a MEASURE whose command is acknowledged, whose polls see their levels within their bounds, and whose two
reads are presented `hi` and `lo`: RESULT = {hi, lo}, RDATA = lo, OK. Nothing else changes. -/
def Obligations.MeasureReturnsTheTwoBytes : Prop :=
  ∀ (c hi lo : Byte) (s : State) (ds r1 r2 : List Drive) (m n : Nat) (d : Drive), Ready s → ds.length = 70 →
    ds[68]? = some .low → Admits s.cfg.params.readyBound m → Admits s.cfg.params.convBound n → r1.length = 49 →
    Presents hi r1 → r2.length = 47 → Presents lo r2 →
    runOp (.measure c) (measureDrives ds m n r1 r2 d) s = .next
      { endedSampled .ok false (lo.getLsbD 0) (idleLines s) d s with
        rdata := .val lo, result := .val (hi ++ lo) }

/-- R171, R172, R146: a bounded conversion poll whose `n` samples all read high ends MEASURE with TIMEOUT; SMPBIT is 1;
RDATA and RESULT are as they were (R173). -/
def Obligations.ExpiredConversionPollEndsWithTimeout : Prop :=
  ∀ (c : Byte) (s : State) (ds : List Drive) (m n : Nat) (d : Drive), Ready s → ds.length = 70 →
    ds[68]? = some .low → Admits s.cfg.params.readyBound m → s.cfg.params.convBound = .samples n →
    runOp (.measure c) (ds ++ readyDrives m ++ List.replicate n Drive.release ++ [d]) s =
      .next (endedSampled .timeout false true (idleLines s) d s)

/-- R32, R173: RESULT changes in no step but a reset and the completion of a MEASURE with OK. -/
def Obligations.OnlyAnOkMeasureWritesResult : Prop :=
  ∀ s t : State, step s = .next t → t.result ≠ s.result →
    (∃ rest, s.env.agenda = .reset :: rest) ∨
    (∃ c k stage, s.seq = .run (.measure c) k stage ∧ t.seq = .idle ∧ t.status.outcome = .ok)

/-- R144, R147, R176, R258: sub-steps, delay units, clock pulses and samples of the micro-programs, polls apart. -/
def Obligations.MicroProgramCounts : Prop :=
  ∀ c : Byte,
    cfgClkIdleLowProgram.steps.length = 2 ∧ cfgDataReleasedProgram.steps.length = 2 ∧
    startProgram.steps.length = 14 ∧ (sendCmdProgram c).steps.length = 69 + 1 ∧
    (readByteProgram false).steps.length = 49 ∧ (readByteProgram true).steps.length = 47 ∧
    (measureProgram c).steps.length = 165 + 1 + 1 ∧
    delayUnits cfgClkIdleLowProgram = 0 ∧ delayUnits cfgDataReleasedProgram = 0 ∧ delayUnits clkHighProgram = 0 ∧
    delayUnits clkLowProgram = 0 ∧ delayUnits dataPullLowProgram = 0 ∧ delayUnits dataReleaseProgram = 0 ∧
    delayUnits sampleDataProgram = 0 ∧ delayUnits delayUnitProgram = 1 ∧ delayUnits startProgram = 6 ∧
    delayUnits (sendCmdProgram c) = 24 ∧ delayUnits (readByteProgram false) = 19 ∧
    delayUnits (readByteProgram true) = 19 ∧ delayUnits (measureProgram c) = 62 ∧
    clockPulses startProgram = 2 ∧ clockPulses (sendCmdProgram c) = 11 ∧ clockPulses (readByteProgram false) = 9 ∧
    clockPulses (readByteProgram true) = 9 ∧ clockPulses (measureProgram c) = 29 ∧
    plainSamples (sendCmdProgram c) = 1 ∧ plainSamples (readByteProgram false) = 8 ∧
    plainSamples (readByteProgram true) = 8 ∧ plainSamples (measureProgram c) = 17

/-! Frames. -/

/-- What a step of an instruction leaves unchanged, for every instruction: the parameters, DLY_COUNT, the host request
port with every byte of RESP_BUF (those that R64 leaves unspecified stay by the model's choice, log entry 14), and the
environment. -/
def Obligations.InstructionsLeavePortAndEnvironment : Prop :=
  ∀ (i : Instr) (s t : State), exec i s = .next t →
    t.cfg = s.cfg ∧ t.dlyCount = s.dlyCount ∧ t.port = s.port ∧ t.env = s.env ∧
    ∀ a, t.port.respBuf.read a = s.port.respBuf.read a

/-- What a step of an instruction leaves unchanged, register by register: RDATA but for READ_BYTE and MEASURE, RESULT but
for MEASURE, ACKBIT but for what sends a command, the configuration flags and CLK.DIR but for the operation that writes
them, SMPBIT but for what samples, CLK but for what clocks, DATA but for what drives it. -/
def Obligations.InstructionsWriteOnlyTheirRegisters : Prop :=
  ∀ (i : Instr) (s t : State), exec i s = .next t →
    ((∀ b, i ≠ .readByte b) → (∀ c, i ≠ .measure c) → t.rdata = s.rdata) ∧
    ((∀ c, i ≠ .measure c) → t.result = s.result) ∧
    (commandOf i = none → t.status.ackBit = s.status.ackBit) ∧
    (i ≠ .cfgClkIdleLow → t.lines.clkDir = s.lines.clkDir ∧ t.status.clkCfg = s.status.clkCfg ∧
      t.status.clkCfgDone = s.status.clkCfgDone) ∧
    (i ≠ .cfgDataReleased → t.status.dataCfg = s.status.dataCfg ∧ t.status.dataCfgDone = s.status.dataCfgDone) ∧
    (i ∈ [.cfgClkIdleLow, .cfgDataReleased, .clkHigh, .clkLow, .dataPullLow, .dataRelease, .delayUnit, .start] →
      t.status.smpBit = s.status.smpBit ∧ t.fresh = s.fresh ∧ (s.scratch = noScratch → t.scratch = noScratch)) ∧
    (i ∈ [.cfgDataReleased, .dataPullLow, .dataRelease, .sampleData, .delayUnit] →
      t.lines.clkLvl = s.lines.clkLvl) ∧
    (i ∈ [.cfgClkIdleLow, .clkHigh, .clkLow, .sampleData, .delayUnit] →
      t.lines.dataDir = s.lines.dataDir ∧ t.lines.dataPue = s.lines.dataPue)

/-- R24: once CLK is an output it stays one in every step but a reset. -/
def Obligations.ClkStaysAnOutput : Prop :=
  ∀ s t : State, step s = .next t → s.lines.clkDir = .out →
    t.lines.clkDir = .out ∨ ∃ rest, s.env.agenda = .reset :: rest

/-- R5, R35: no step changes a parameter; DLY_COUNT changes in a reset only. -/
def Obligations.ParametersAndDelayCountStay : Prop :=
  ∀ s t : State, step s = .next t →
    t.cfg = s.cfg ∧ (t.dlyCount = s.dlyCount ∨ ∃ rest, s.env.agenda = .reset :: rest)

/-! The register port. -/

/-- R62, R61: a read completes, changes nothing but what it returns (and the free-value index), and returns the register of
the map: OPW and the reserved offsets read 0. -/
def Obligations.PortReadsHaveNoSideEffect : Prop :=
  ∀ (s : State) (offset : BitVec 4), ∃ v n,
    portRead offset 2 s = .next { s with env := { s.env with readData := some v }, fresh := n } ∧
    ((offset = 0 ∨ 6 ≤ offset.toNat) → v = 0) ∧ (offset = 1 → v = (readStatus s).1) ∧
    (offset = 2 → ∀ b, s.rdata = .val b → v = b.zeroExtend 16) ∧ (offset = 3 → ∀ w, s.result = .val w → v = w) ∧
    (offset = 4 → v = (readLines s).1) ∧ (offset = 5 → v = s.dlyCount)

/-- R61, R63: a write to any offset but OPW is ignored; an access of another width than 2 bytes is refused. -/
def Obligations.OtherPortAccessesDoNothing : Prop :=
  (∀ (s : State) (offset : BitVec 4) (v : Word), offset ≠ 0 → portWrite offset 2 v s = .next s) ∧
  (∀ (s : State) (offset : BitVec 4) (width : Nat) (v : Word), width ≠ 2 →
    portWrite offset width v s = .refused (.accessWidth width) ∧
    portRead offset width s = .refused (.accessWidth width))

/-- R37: the layout of STATUS, and its fields at reset; a write is ignored. ACKBIT and SMPBIT are draws while unspecified
(R41). CLKCFG and DATACFG read 1 once assigned (R100, R101) and once their operation has completed (R25), the model's
reading of the two rules together (log entry 9). -/
def Obligations.StatusLayoutIsAsTabled : Prop :=
  ∀ s : State, ∃ ack smp,
    let w := (readStatus s).1
    (∀ b, s.status.ackBit = .val b → ack = b) ∧ (∀ b, s.status.smpBit = .val b → smp = b) ∧
    (s.status.ackBit = .unspecified → ack = Config.drawBit s.fresh) ∧
    (s.status.smpBit = .unspecified → smp = Config.drawBit (if s.status.ackBit = .unspecified then s.fresh + 1 else s.fresh)) ∧
    w.getLsbD 0 = s.status.busy ∧ w.extractLsb' 1 2 = (outcomeCode s.status.outcome).truncate 2 ∧
    (outcomeCode .none = 0 ∧ outcomeCode .ok = 1 ∧ outcomeCode .nack = 2 ∧ outcomeCode .timeout = 3) ∧
    w.getLsbD 3 = s.status.illegal ∧ w.getLsbD 4 = ack ∧ w.getLsbD 5 = smp ∧ w.getLsbD 6 = (s.status.clkCfg && s.status.clkCfgDone) ∧
    w.getLsbD 7 = (s.status.dataCfg && s.status.dataCfgDone) ∧ (∀ i, 8 ≤ i → w.getLsbD i = false) ∧
    (∀ i ∈ [0, 1, 2, 3, 6, 7], (readStatus s.resetEngine).1.getLsbD i = false) ∧ ∀ v, portWrite 1 2 v s = .next s

/-- R38: the layout of LINES; CLK.PUE and DATA.LVL read 0; the two bus levels are those of R34; SMPBIT stays; a write is
ignored. That a read between the two sub-steps of `DataLow()` or `DataRelease()` shows the TRANSIENT fields too, in bits
3, 5 and 7, is the model's choice: it follows R38, R72, R223 and R224 against R42(a) (log entry 19). -/
def Obligations.LinesLayoutIsAsTabled : Prop :=
  ∀ s : State,
    let w := (readLines s).1
    w.getLsbD 0 = decide (s.lines.clkDir = .out) ∧ w.getLsbD 1 = s.lines.clkLvl ∧ w.getLsbD 2 = false ∧
    w.getLsbD 3 = decide (s.lines.dataDir = .out) ∧ w.getLsbD 4 = false ∧ w.getLsbD 5 = s.lines.dataPue ∧
    w.getLsbD 6 = (busClk s).1 ∧ w.getLsbD 7 = (busData (busClk s).2).1 ∧
    (readLines s).2.status.smpBit = s.status.smpBit ∧ (∀ i, 8 ≤ i → w.getLsbD i = false) ∧
    ∀ v, portWrite 4 2 v s = .next s

/-! The host request port. -/

/-- R192: the steps of MeasureRequest, one by one: the hold while BUSY, the MEASURE word, the check of ILLEGAL, the hold
until it completes. How they divide into steps is the model's choice (log entry 10). -/
def Obligations.MeasureRequestSteps : Prop :=
  ∀ (s : State) (c : Byte),
    (s.port.phase = .waitIdle c →
      servePort s = .next (if s.status.busy = true then s else { s with port := { s.port with phase := .write c } })) ∧
    (s.port.phase = .write c → ∀ t, portWrite 0 2 (0xC000 ||| c.zeroExtend 16) s = .next t →
      servePort s = .next { t with port := { t.port with phase := .check } }) ∧
    (s.port.phase = .check → s.status.illegal = true →
      servePort s = .next { s with
        port := { s.port with req := none, respLen := 0, phase := .idle }
        env := { s.env with responses := s.env.responses ++ [[]] } }) ∧
    (s.port.phase = .check → s.status.illegal = false →
      servePort s = .next { s with port := { s.port with phase := .waitDone } }) ∧
    (s.port.phase = .waitDone →
      servePort s = .next (if s.status.busy = true then s else { s with port := { s.port with phase := .collect } }))

/-- R192, R193, R196, R65: on OK the response is the two bytes of RESULT, the first byte read first, length 2, and
RESP_BUF holds them; on NACK or TIMEOUT it is empty, and bytes 0 and 1 are as they were (R199). That the bytes from
RESP_LEN on, which R64 and R199 leave unspecified, stay as they were is the model's choice (log entry 14), and that it is
one step is too (log entry 10). -/
def Obligations.CollectedResponseIsTheResult : Prop :=
  ∀ s : State, s.port.phase = .collect →
    (∀ hi lo : Byte, s.status.outcome = .ok → s.result = .val (hi ++ lo) →
      ∃ m, servePort s = .next { s with
          port := { req := none, respBuf := m, respLen := 2, phase := .idle }
          env := { s.env with responses := s.env.responses ++ [[hi, lo]] } } ∧
        m.read 0 = some hi ∧ m.read 1 = some lo ∧ ∀ a, a ≠ 0 → a ≠ 1 → m.read a = s.port.respBuf.read a) ∧
    ((s.status.outcome = .nack ∨ s.status.outcome = .timeout) →
      servePort s = .next { s with
        port := { s.port with req := none, respLen := 0, phase := .idle }
        env := { s.env with responses := s.env.responses ++ [[]] } })

/-- R195: a code that is none of the five gives an empty response; no word is written and no line changes. That it is
one step is the model's choice (log entry 10). -/
def Obligations.UnrecognizedRequestAnswersNothing : Prop :=
  ∀ (s : State) (r : Request) (rest : List Request), s.port.phase = .idle → s.env.inbox = r :: rest →
    r.code ∉ s.cfg.params.requestCodes →
    servePort s = .next { s with
      port := { s.port with req := none, respLen := 0, phase := .idle }
      env := { s.env with inbox := rest, responses := s.env.responses ++ [[]] } }

/-- R191, R193, R194: a get-temperature or get-humidity request is begun with its command byte; R197: an echo or status
request is refused. The step granularity is the model's choice (log entry 10). -/
def Obligations.RecognizedRequestsAreBegunOrRefused : Prop :=
  ∀ (s : State) (r : Request) (rest : List Request), s.port.phase = .idle → s.env.inbox = r :: rest →
    (r.code = s.cfg.params.reqGetTemp →
      servePort s = .next { s with
        port := { s.port with req := some r, phase := .waitIdle 0x03 }, env := { s.env with inbox := rest } }) ∧
    (r.code = s.cfg.params.reqGetHum →
      servePort s = .next { s with
        port := { s.port with req := some r, phase := .waitIdle s.cfg.params.cmdMeasureRh }
        env := { s.env with inbox := rest } }) ∧
    ((r.code = s.cfg.params.reqEcho ∨ r.code = s.cfg.params.reqSetStatus ∨ r.code = s.cfg.params.reqGetStatus) →
      servePort s = .refused (.requestOutOfScope r.code))

/-- R198: the parameter words are ignored: two ports that differ in the words of the request being served, or of the next
one, take the same step, but for the record itself. -/
def Obligations.ParameterWordsAreIgnored : Prop :=
  (∀ (s t : State) (r : Request) (w0 w1 : Word), s.port.phase ≠ .idle → s.port.req = some r →
    servePort s = .next t →
    ∃ q, servePort { s with port := { s.port with req := some { r with w0 := w0, w1 := w1 } } } =
      .next { t with port := { t.port with req := q } }) ∧
  (∀ (s t : State) (r : Request) (w0 w1 : Word) (rest : List Request), s.port.phase = .idle →
    s.env.inbox = r :: rest → servePort s = .next t →
    ∃ q, servePort { s with env := { s.env with inbox := { r with w0 := w0, w1 := w1 } :: rest } } =
      .next { t with port := { t.port with req := q } })

/-- R191 to R193, R65, end to end: a get-temperature request presented to an idle port of a ready engine, a sensor that
acknowledges, shows ready and conversion within the bounds, and presents `hi` and `lo`: the response is [hi, lo].
The port's step granularity is the model's choice (log entry 10). -/
def Obligations.GetTemperatureAnswersTheTwoBytes : Prop :=
  ∀ (s : State) (r : Request) (hi lo : Byte) (ds r1 r2 : List Drive) (m n : Nat) (d : Drive), Ready s →
    s.port.phase = .idle → s.env.inbox = [] → r.code = s.cfg.params.reqGetTemp → ds.length = 69 →
    ds[67]? = some .low → Admits s.cfg.params.readyBound m → Admits s.cfg.params.convBound n → r1.length = 49 →
    Presents hi r1 → r2.length = 47 → Presents lo r2 →
    s.env.agenda = requestTurns r ++ drivenTurns (measureDrives ds m n r1 r2 d) ++ [Turn.serve, Turn.serve] →
    ∃ t, core.run s.env.agenda.length s = .next t ∧ t.env.responses = s.env.responses ++ [[hi, lo]] ∧
      t.port.respLen = 2 ∧ t.port.req = none ∧ t.port.respBuf.read 0 = some hi ∧ t.port.respBuf.read 1 = some lo ∧
      t.result = .val (hi ++ lo) ∧ t.lines = idleLines s

/-- A step of the request port that writes no word leaves the engine and the sensor alone, and every byte of RESP_BUF but
those at offsets 0 and 1. That bytes 2 and 3, which R64 and R199 leave unspecified, stay is the model's choice (log
entry 14). -/
def Obligations.RequestPortLeavesTheEngine : Prop :=
  ∀ s t : State, servePort s = .next t → (∀ c, s.port.phase ≠ .write c) →
    t.cfg = s.cfg ∧ t.lines = s.lines ∧ t.status = s.status ∧ t.scratch = s.scratch ∧ t.seq = s.seq ∧
    t.rdata = s.rdata ∧ t.result = s.result ∧ t.dlyCount = s.dlyCount ∧ t.env.sensDrv = s.env.sensDrv ∧
    t.env.agenda = s.env.agenda ∧ ∀ a, a ≠ 0 → a ≠ 1 → t.port.respBuf.read a = s.port.respBuf.read a

/-! Reset. -/

/-- R240, R222, R41: a reset gives every piece of the engine's state its reset value in one step, from any state; the
sensor is not reset. That the waiting requests and what was handed out survive it is the model's choice (log entry 16).
The port's phase, the agenda and the free-value index are the model's own fields (log entries 1, 3, 10), and that R25's
conditions stand beside the two flags is the model's reading (log entry 9). -/
def Obligations.WatchdogResetsTheEngine : Prop :=
  ∀ (s : State) (rest : List Turn), s.env.agenda = .reset :: rest →
    step s = .next
      { cfg := s.cfg
        lines := { clkDir := .inp, clkLvl := false, dataDir := .inp, dataPue := false }
        status := { clkCfg := false, dataCfg := false, clkCfgDone := false, dataCfgDone := false, busy := false
                    outcome := .none, illegal := false, ackBit := .unspecified, smpBit := .unspecified }
        scratch := { cmd := none, acc := none, bitCnt := none, pollCnt := none }
        seq := .idle, rdata := .unspecified, result := .unspecified, dlyCount := calibrate s.cfg
        port := { req := none, respBuf := [], respLen := 0, phase := .idle }
        env := { s.env with agenda := rest }, fresh := s.fresh }

/-! The invariant. -/

/-- The invariant holds at reset. The request port's phase is the model's own field (log entry 10). -/
def Obligations.InvariantHoldsAtReset : Prop := EngineInv State.reset

/-- Every step keeps the invariant: BUSY and SEQ agree, OUTCOME is NONE while an operation runs, DATA is never OUT with
the pull-up on and stands at DRIVEN_LOW or RELEASED between primitives, CLK stays an output, the scratch registers
hold what the operation has written and nothing outside it, the request port is sound. SEQ's stage and the port's
phase are the model's own (log entries 2, 10), and that a flag is assigned before it reads 1 is log entry 9. -/
def Obligations.EveryStepKeepsTheInvariant : Prop :=
  ∀ s t : State, EngineInv s → step s = .next t → EngineInv t

/-- From a state that meets the invariant no step faults: the model's two faults are never reached. -/
def Obligations.NoStepFaultsUnderTheInvariant : Prop :=
  ∀ s : State, EngineInv s → ∀ f, step s ≠ .fault f

/-- From a state that meets the invariant the running operation always takes its step: it goes on, raises, stays in its
poll, or completes. SEQ's stage is the model's own (log entry 2). -/
def Obligations.RunningOperationTakesItsStep : Prop :=
  ∀ (op : Instr) (k : Nat) (stage : Stage) (s : State), EngineInv s → s.seq = .run op k stage →
    ∃ t, exec op s = .next t ∧
      (t.seq = .run op (k + 1) .fresh ∨ t.seq = .run op k .looping ∨
        (∃ o, (o = .nack ∨ o = .timeout) ∧ t.seq = .run op k (.raised o)) ∨
        (t.seq = .idle ∧ t.status.busy = false ∧ t.status.outcome ≠ .none))

/-! The configuration flags. -/

/-- R25, R100, R101: a configuration flag is assigned in sub-step 2 of its operation, its operation has completed from the
completion step with OK on, a reset clears both, and no other step changes either. From a state that meets the invariant
the flag as read becomes 1 in that completion step and in no other. That the two rules hold side by side in this way is
the model's reading of them (log entry 9). -/
def Obligations.ConfigurationFlagsAreSetAtCompletion : Prop :=
  (∀ (s : State), s.seq = .run .cfgClkIdleLow 2 .fresh →
    ∃ t, exec .cfgClkIdleLow s = .next t ∧ t.status.busy = false ∧ t.status.outcome = .ok ∧
      t.status.clkCfgDone = true ∧ clkCfgRead t.status = s.status.clkCfg) ∧
  (∀ (s : State), s.seq = .run .cfgDataReleased 2 .fresh →
    ∃ t, exec .cfgDataReleased s = .next t ∧ t.status.busy = false ∧ t.status.outcome = .ok ∧
      t.status.dataCfgDone = true ∧ dataCfgRead t.status = s.status.dataCfg) ∧
  (∀ s t : State, step s = .next t →
    (t.status.clkCfg ≠ s.status.clkCfg →
      ((∃ rest, s.env.agenda = .reset :: rest) ∧ t.status.clkCfg = false) ∨
      ((∃ stage, s.seq = .run .cfgClkIdleLow 1 stage) ∧ t.seq = .run .cfgClkIdleLow 2 .fresh ∧
        t.lines.clkDir = .out ∧ t.status.clkCfg = true)) ∧
    (t.status.clkCfgDone ≠ s.status.clkCfgDone →
      ((∃ rest, s.env.agenda = .reset :: rest) ∧ t.status.clkCfgDone = false) ∨
      ((∃ stage, s.seq = .run .cfgClkIdleLow 2 stage) ∧ t.seq = .idle ∧ t.status.clkCfgDone = true)) ∧
    (t.status.dataCfg ≠ s.status.dataCfg →
      ((∃ rest, s.env.agenda = .reset :: rest) ∧ t.status.dataCfg = false) ∨
      ((∃ stage, s.seq = .run .cfgDataReleased 1 stage) ∧ t.seq = .run .cfgDataReleased 2 .fresh ∧
        t.lines.dataPue = true ∧ t.status.dataCfg = true)) ∧
    (t.status.dataCfgDone ≠ s.status.dataCfgDone →
      ((∃ rest, s.env.agenda = .reset :: rest) ∧ t.status.dataCfgDone = false) ∨
      ((∃ stage, s.seq = .run .cfgDataReleased 2 stage) ∧ t.seq = .idle ∧ t.status.dataCfgDone = true))) ∧
  ∀ s t : State, EngineInv s → step s = .next t →
    (clkCfgRead s.status = false → clkCfgRead t.status = true →
      s.seq = .run .cfgClkIdleLow 2 .fresh ∧ t.status.busy = false ∧ t.status.outcome = .ok) ∧
    (dataCfgRead s.status = false → dataCfgRead t.status = true →
      s.seq = .run .cfgDataReleased 2 .fresh ∧ t.status.busy = false ∧ t.status.outcome = .ok)
end

