-- ==== Sys2Proof/Laws/Memory.lean ====
section
/-! SUPPORT. The response buffer's laws: a write keeps the canonical form, is read back, and changes nothing else. -/

namespace Sys2Proof.Machine

theorem Memory.read_write_same (m : Memory) (a : Nat) (v : Byte) : (m.write a v).read a = some v := by
  induction m with
  | nil => simp [Memory.write, Memory.read]
  | cons c m ih =>
    obtain ⟨b, w⟩ := c
    by_cases h : a < b
    · simp [Memory.write, Memory.read, h]
    · by_cases h2 : a = b
      · subst h2; simp [Memory.write, Memory.read]
      · simp [Memory.write, Memory.read, h, h2, ih, Ne.symm h2]

theorem Memory.read_write_other (m : Memory) (a x : Nat) (v : Byte) (h : x ≠ a) :
    (m.write a v).read x = m.read x := by
  induction m with
  | nil => simp [Memory.write, Memory.read, Ne.symm h]
  | cons c m ih =>
    obtain ⟨b, w⟩ := c
    by_cases h1 : a < b
    · simp [Memory.write, Memory.read, h1, Ne.symm h]
    · by_cases h2 : a = b
      · subst h2; simp [Memory.write, Memory.read, Ne.symm h]
      · simp only [Memory.write, Memory.read, h1, h2, if_false, ih]

theorem Memory.wfFrom_write (m : Memory) (lo a : Nat) (v : Byte) (hm : Memory.wfFrom lo m = true)
    (hlo : lo ≤ a) (ha : a < respCap) : Memory.wfFrom lo (m.write a v) = true := by
  induction m generalizing lo with
  | nil => simp [Memory.write, Memory.wfFrom, hlo, ha]
  | cons c m ih =>
    obtain ⟨b, w⟩ := c
    simp only [Memory.wfFrom, Bool.and_eq_true, decide_eq_true_eq] at hm
    obtain ⟨⟨h1, h2⟩, h3⟩ := hm
    by_cases hab : a < b
    · simp only [Memory.write, hab, if_true, Memory.wfFrom, Bool.and_eq_true, decide_eq_true_eq]
      exact ⟨⟨hlo, ha⟩, ⟨hab, h2⟩, h3⟩
    · by_cases he : a = b
      · subst he
        simp [Memory.write, Memory.wfFrom, hlo, ha, h3]
      · simp only [Memory.write, hab, he, if_false, Memory.wfFrom, Bool.and_eq_true, decide_eq_true_eq]
        exact ⟨⟨h1, h2⟩, ih (b + 1) h3 (by omega)⟩

/-- Every write inside the buffer keeps the canonical form. -/
theorem Memory.wf_write (m : Memory) (a : Nat) (v : Byte) (hm : m.wf = true) (ha : a < respCap) :
    (m.write a v).wf = true :=
  Memory.wfFrom_write m 0 a v hm (Nat.zero_le a) ha

theorem resetPort_wf : resetPort.respBuf.wf = true := rfl

end Sys2Proof.Machine
end

