-- ==== Sys2Proof/Laws/State.lean ====
section
/-! SUPPORT. One lemma per field per update of the state, so that no proof unfolds a record update. -/

namespace Sys2Proof.Machine

section
variable (s : State) (l : Lines)
@[simp] theorem State.withLines_cfg : (s.withLines l).cfg = s.cfg := rfl
@[simp] theorem State.withLines_lines : (s.withLines l).lines = l := rfl
@[simp] theorem State.withLines_status : (s.withLines l).status = s.status := rfl
@[simp] theorem State.withLines_scratch : (s.withLines l).scratch = s.scratch := rfl
@[simp] theorem State.withLines_seq : (s.withLines l).seq = s.seq := rfl
@[simp] theorem State.withLines_rdata : (s.withLines l).rdata = s.rdata := rfl
@[simp] theorem State.withLines_result : (s.withLines l).result = s.result := rfl
@[simp] theorem State.withLines_dlyCount : (s.withLines l).dlyCount = s.dlyCount := rfl
@[simp] theorem State.withLines_port : (s.withLines l).port = s.port := rfl
@[simp] theorem State.withLines_env : (s.withLines l).env = s.env := rfl
@[simp] theorem State.withLines_fresh : (s.withLines l).fresh = s.fresh := rfl
end

section
variable (s : State) (st : Status)
@[simp] theorem State.withStatus_cfg : (s.withStatus st).cfg = s.cfg := rfl
@[simp] theorem State.withStatus_lines : (s.withStatus st).lines = s.lines := rfl
@[simp] theorem State.withStatus_status : (s.withStatus st).status = st := rfl
@[simp] theorem State.withStatus_scratch : (s.withStatus st).scratch = s.scratch := rfl
@[simp] theorem State.withStatus_seq : (s.withStatus st).seq = s.seq := rfl
@[simp] theorem State.withStatus_rdata : (s.withStatus st).rdata = s.rdata := rfl
@[simp] theorem State.withStatus_result : (s.withStatus st).result = s.result := rfl
@[simp] theorem State.withStatus_dlyCount : (s.withStatus st).dlyCount = s.dlyCount := rfl
@[simp] theorem State.withStatus_port : (s.withStatus st).port = s.port := rfl
@[simp] theorem State.withStatus_env : (s.withStatus st).env = s.env := rfl
@[simp] theorem State.withStatus_fresh : (s.withStatus st).fresh = s.fresh := rfl
end

section
variable (s : State) (sc : Scratch)
@[simp] theorem State.withScratch_cfg : (s.withScratch sc).cfg = s.cfg := rfl
@[simp] theorem State.withScratch_lines : (s.withScratch sc).lines = s.lines := rfl
@[simp] theorem State.withScratch_status : (s.withScratch sc).status = s.status := rfl
@[simp] theorem State.withScratch_scratch : (s.withScratch sc).scratch = sc := rfl
@[simp] theorem State.withScratch_seq : (s.withScratch sc).seq = s.seq := rfl
@[simp] theorem State.withScratch_rdata : (s.withScratch sc).rdata = s.rdata := rfl
@[simp] theorem State.withScratch_result : (s.withScratch sc).result = s.result := rfl
@[simp] theorem State.withScratch_dlyCount : (s.withScratch sc).dlyCount = s.dlyCount := rfl
@[simp] theorem State.withScratch_port : (s.withScratch sc).port = s.port := rfl
@[simp] theorem State.withScratch_env : (s.withScratch sc).env = s.env := rfl
@[simp] theorem State.withScratch_fresh : (s.withScratch sc).fresh = s.fresh := rfl
end

section
variable (s : State) (q : Seq)
@[simp] theorem State.withSeq_cfg : (s.withSeq q).cfg = s.cfg := rfl
@[simp] theorem State.withSeq_lines : (s.withSeq q).lines = s.lines := rfl
@[simp] theorem State.withSeq_status : (s.withSeq q).status = s.status := rfl
@[simp] theorem State.withSeq_scratch : (s.withSeq q).scratch = s.scratch := rfl
@[simp] theorem State.withSeq_seq : (s.withSeq q).seq = q := rfl
@[simp] theorem State.withSeq_rdata : (s.withSeq q).rdata = s.rdata := rfl
@[simp] theorem State.withSeq_result : (s.withSeq q).result = s.result := rfl
@[simp] theorem State.withSeq_dlyCount : (s.withSeq q).dlyCount = s.dlyCount := rfl
@[simp] theorem State.withSeq_port : (s.withSeq q).port = s.port := rfl
@[simp] theorem State.withSeq_env : (s.withSeq q).env = s.env := rfl
@[simp] theorem State.withSeq_fresh : (s.withSeq q).fresh = s.fresh := rfl
end

section
variable (s : State) (b : Held Byte)
@[simp] theorem State.withRdata_cfg : (s.withRdata b).cfg = s.cfg := rfl
@[simp] theorem State.withRdata_lines : (s.withRdata b).lines = s.lines := rfl
@[simp] theorem State.withRdata_status : (s.withRdata b).status = s.status := rfl
@[simp] theorem State.withRdata_scratch : (s.withRdata b).scratch = s.scratch := rfl
@[simp] theorem State.withRdata_seq : (s.withRdata b).seq = s.seq := rfl
@[simp] theorem State.withRdata_rdata : (s.withRdata b).rdata = b := rfl
@[simp] theorem State.withRdata_result : (s.withRdata b).result = s.result := rfl
@[simp] theorem State.withRdata_dlyCount : (s.withRdata b).dlyCount = s.dlyCount := rfl
@[simp] theorem State.withRdata_port : (s.withRdata b).port = s.port := rfl
@[simp] theorem State.withRdata_env : (s.withRdata b).env = s.env := rfl
@[simp] theorem State.withRdata_fresh : (s.withRdata b).fresh = s.fresh := rfl
end

section
variable (s : State) (w : Held Word)
@[simp] theorem State.withResult_cfg : (s.withResult w).cfg = s.cfg := rfl
@[simp] theorem State.withResult_lines : (s.withResult w).lines = s.lines := rfl
@[simp] theorem State.withResult_status : (s.withResult w).status = s.status := rfl
@[simp] theorem State.withResult_scratch : (s.withResult w).scratch = s.scratch := rfl
@[simp] theorem State.withResult_seq : (s.withResult w).seq = s.seq := rfl
@[simp] theorem State.withResult_rdata : (s.withResult w).rdata = s.rdata := rfl
@[simp] theorem State.withResult_result : (s.withResult w).result = w := rfl
@[simp] theorem State.withResult_dlyCount : (s.withResult w).dlyCount = s.dlyCount := rfl
@[simp] theorem State.withResult_port : (s.withResult w).port = s.port := rfl
@[simp] theorem State.withResult_env : (s.withResult w).env = s.env := rfl
@[simp] theorem State.withResult_fresh : (s.withResult w).fresh = s.fresh := rfl
end

section
variable (s : State) (p : RequestPort)
@[simp] theorem State.withPort_cfg : (s.withPort p).cfg = s.cfg := rfl
@[simp] theorem State.withPort_lines : (s.withPort p).lines = s.lines := rfl
@[simp] theorem State.withPort_status : (s.withPort p).status = s.status := rfl
@[simp] theorem State.withPort_scratch : (s.withPort p).scratch = s.scratch := rfl
@[simp] theorem State.withPort_seq : (s.withPort p).seq = s.seq := rfl
@[simp] theorem State.withPort_rdata : (s.withPort p).rdata = s.rdata := rfl
@[simp] theorem State.withPort_result : (s.withPort p).result = s.result := rfl
@[simp] theorem State.withPort_dlyCount : (s.withPort p).dlyCount = s.dlyCount := rfl
@[simp] theorem State.withPort_port : (s.withPort p).port = p := rfl
@[simp] theorem State.withPort_env : (s.withPort p).env = s.env := rfl
@[simp] theorem State.withPort_fresh : (s.withPort p).fresh = s.fresh := rfl
end

section
variable (s : State) (e : Env)
@[simp] theorem State.withEnv_cfg : (s.withEnv e).cfg = s.cfg := rfl
@[simp] theorem State.withEnv_lines : (s.withEnv e).lines = s.lines := rfl
@[simp] theorem State.withEnv_status : (s.withEnv e).status = s.status := rfl
@[simp] theorem State.withEnv_scratch : (s.withEnv e).scratch = s.scratch := rfl
@[simp] theorem State.withEnv_seq : (s.withEnv e).seq = s.seq := rfl
@[simp] theorem State.withEnv_rdata : (s.withEnv e).rdata = s.rdata := rfl
@[simp] theorem State.withEnv_result : (s.withEnv e).result = s.result := rfl
@[simp] theorem State.withEnv_dlyCount : (s.withEnv e).dlyCount = s.dlyCount := rfl
@[simp] theorem State.withEnv_port : (s.withEnv e).port = s.port := rfl
@[simp] theorem State.withEnv_env : (s.withEnv e).env = e := rfl
@[simp] theorem State.withEnv_fresh : (s.withEnv e).fresh = s.fresh := rfl
end

section
variable (s : State) (n : Nat)
@[simp] theorem State.withFresh_cfg : (s.withFresh n).cfg = s.cfg := rfl
@[simp] theorem State.withFresh_lines : (s.withFresh n).lines = s.lines := rfl
@[simp] theorem State.withFresh_status : (s.withFresh n).status = s.status := rfl
@[simp] theorem State.withFresh_scratch : (s.withFresh n).scratch = s.scratch := rfl
@[simp] theorem State.withFresh_seq : (s.withFresh n).seq = s.seq := rfl
@[simp] theorem State.withFresh_rdata : (s.withFresh n).rdata = s.rdata := rfl
@[simp] theorem State.withFresh_result : (s.withFresh n).result = s.result := rfl
@[simp] theorem State.withFresh_dlyCount : (s.withFresh n).dlyCount = s.dlyCount := rfl
@[simp] theorem State.withFresh_port : (s.withFresh n).port = s.port := rfl
@[simp] theorem State.withFresh_env : (s.withFresh n).env = s.env := rfl
@[simp] theorem State.withFresh_fresh : (s.withFresh n).fresh = n := rfl
end

/-! What a reset leaves (R41, R240). -/

section
variable (s : State)
@[simp] theorem State.resetEngine_cfg : s.resetEngine.cfg = s.cfg := rfl
@[simp] theorem State.resetEngine_lines : s.resetEngine.lines = resetLines := rfl
@[simp] theorem State.resetEngine_status : s.resetEngine.status = resetStatus := rfl
@[simp] theorem State.resetEngine_scratch : s.resetEngine.scratch = noScratch := rfl
@[simp] theorem State.resetEngine_seq : s.resetEngine.seq = .idle := rfl
@[simp] theorem State.resetEngine_rdata : s.resetEngine.rdata = .unspecified := rfl
@[simp] theorem State.resetEngine_result : s.resetEngine.result = .unspecified := rfl
@[simp] theorem State.resetEngine_dlyCount : s.resetEngine.dlyCount = calibrate s.cfg := rfl
@[simp] theorem State.resetEngine_port : s.resetEngine.port = resetPort := rfl
@[simp] theorem State.resetEngine_env : s.resetEngine.env = s.env := rfl
@[simp] theorem State.resetEngine_fresh : s.resetEngine.fresh = s.fresh := rfl
end

end Sys2Proof.Machine
end

