-- ==== Sys2Proof/Laws/Ops.lean ====
section
/-! SUPPORT. What each shared operation can do, said once. -/

namespace Sys2Proof.Machine

/-! Draws and reads. -/

theorem drawBit_eq (s : State) : drawBit s = (Config.drawBit s.fresh, s.withFresh (s.fresh + 1)) := rfl

theorem drawBits_eq (n : Nat) (s : State) : drawBits n s = (freeBits n s.fresh, s.withFresh (s.fresh + n)) := rfl

@[simp] theorem readHeldBit_val (b : Bool) (s : State) : readHeldBit (.val b) s = (b, s) := rfl

@[simp] theorem readHeld_val {n : Nat} (v : BitVec n) (s : State) : readHeld (.val v) s = (v, s) := rfl

/-- A read of a bit changes the free-value index at most. -/
theorem readHeldBit_state (h : Held Bool) (s : State) : ∃ n, (readHeldBit h s).2 = s.withFresh n := by
  cases h with
  | unspecified => exact ⟨s.fresh + 1, rfl⟩
  | val b => exact ⟨s.fresh, rfl⟩

/-- A read of a register changes the free-value index at most. -/
theorem readHeld_state {n : Nat} (h : Held (BitVec n)) (s : State) : ∃ m, (readHeld h s).2 = s.withFresh m := by
  cases h with
  | unspecified => exact ⟨s.fresh + n, rfl⟩
  | val v => exact ⟨s.fresh, rfl⟩

/-- A bus read changes the free-value index at most (R34). -/
theorem busData_state (s : State) : ∃ n, (busData s).2 = s.withFresh n := by
  unfold busData
  split
  · exact ⟨s.fresh, rfl⟩
  · split
    · exact ⟨s.fresh, rfl⟩
    · exact ⟨s.fresh + 1, rfl⟩

/-- A bus read changes the free-value index at most (R34). -/
theorem busClk_state (s : State) : ∃ n, (busClk s).2 = s.withFresh n := by
  unfold busClk
  split
  · exact ⟨s.fresh, rfl⟩
  · exact ⟨s.fresh + 1, rfl⟩

/-- A sample writes SMPBIT, and the free-value index at most (R107). -/
theorem sample_state (s : State) : ∃ n, (sample s).2 = setSmpBit (sample s).1 (s.withFresh n) := by
  by_cases h : s.lines.dataDir = .out
  · exact ⟨s.fresh + 1, by simp [sample, h, drawBit]⟩
  · obtain ⟨n, hn⟩ := busData_state s
    exact ⟨n, by simp [sample, h, hn]⟩

/-- A sample while the engine releases DATA and a pull-up holds it: the sensor's drive (R34, R107). -/
theorem sample_released (s : State) (hd : s.lines.dataDir = .inp)
    (hp : s.lines.dataPue = true ∨ s.cfg.params.extPullup = true) :
    sample s = (decide (s.env.sensDrv = .release), setSmpBit (decide (s.env.sensDrv = .release)) s) := by
  cases hdrv : s.env.sensDrv <;> simp [sample, busData, hd, hp, hdrv]

/-- A sample while the engine drives DATA low: a draw (R107, D13). -/
theorem sample_driven (s : State) (hd : s.lines.dataDir = .out) :
    sample s = (Config.drawBit s.fresh, setSmpBit (Config.drawBit s.fresh) (s.withFresh (s.fresh + 1))) := by
  simp [sample, hd, drawBit]

/-! Assignments and sub-steps. -/

/-- An assignment writes the scratch registers, ACKBIT, R25's conditions, RDATA and RESULT at most, and the free-value
index. -/
theorem assign_frame {u : Upd} {s t : State} (h : assign u s = .ok t) :
    ∃ sc a cc dc r w n, t = { s with
      scratch := sc, status := { s.status with ackBit := a, clkCfgDone := cc, dataCfgDone := dc }, rdata := r
      result := w, fresh := n } := by
  have bit := readHeldBit_state s.status.smpBit s
  have reg := readHeld_state s.rdata s
  cases u <;> simp only [assign, lastSample] at h
  case loadCmd c => cases h; exact ⟨_, _, _, _, _, _, _, rfl⟩
  case shiftCmd => split at h <;> cases h; exact ⟨_, _, _, _, _, _, _, rfl⟩
  case clearBitCnt => cases h; exact ⟨_, _, _, _, _, _, _, rfl⟩
  case incBitCnt => split at h <;> cases h; exact ⟨_, _, _, _, _, _, _, rfl⟩
  case ackFromSample =>
    obtain ⟨n, hn⟩ := bit
    rw [hn] at h; cases h; exact ⟨_, _, _, _, _, _, _, rfl⟩
  case clearAcc => cases h; exact ⟨_, _, _, _, _, _, _, rfl⟩
  case shiftInSample =>
    split at h
    · obtain ⟨n, hn⟩ := bit
      rw [hn] at h; cases h; exact ⟨_, _, _, _, _, _, _, rfl⟩
    · cases h
  case rdataFromAcc => split at h <;> cases h; exact ⟨_, _, _, _, _, _, _, rfl⟩
  case clearPollCnt => cases h; exact ⟨_, _, _, _, _, _, _, rfl⟩
  case resultFromBytes =>
    split at h
    · obtain ⟨n, hn⟩ := reg
      rw [hn] at h; cases h; exact ⟨_, _, _, _, _, _, _, rfl⟩
    · cases h
  case clkCfgDone => cases h; exact ⟨_, _, _, _, _, _, _, rfl⟩
  case dataCfgDone => cases h; exact ⟨_, _, _, _, _, _, _, rfl⟩

/-- A list of assignments writes no more than one does. -/
theorem assignAll_frame {us : List Upd} {s t : State} (h : assignAll us s = .ok t) :
    ∃ sc a cc dc r w n, t = { s with
      scratch := sc, status := { s.status with ackBit := a, clkCfgDone := cc, dataCfgDone := dc }, rdata := r
      result := w, fresh := n } := by
  induction us generalizing s with
  | nil => cases h; exact ⟨_, _, _, _, _, _, _, rfl⟩
  | cons u us ih =>
    simp only [assignAll] at h
    split at h
    · rename_i s1 hu
      obtain ⟨_, _, _, _, _, _, _, rfl⟩ := assign_frame hu
      obtain ⟨_, _, _, _, _, _, _, rfl⟩ := ih h
      exact ⟨_, _, _, _, _, _, _, rfl⟩
    · cases h

/-- A poll iteration writes SMPBIT and POLLCNT, and the free-value index at most (R145, R146). -/
theorem pollOnce_frame {level : Bool} {bound : Bound} {s t : State} {fl : Flow}
    (h : pollOnce level bound s = .ok (t, fl)) :
    ∃ b sc n, t = { s with status := { s.status with smpBit := .val b }, scratch := sc, fresh := n } := by
  obtain ⟨n, hn⟩ := sample_state s
  unfold pollOnce at h
  rw [show sample s = ((sample s).1, (sample s).2) from rfl] at h
  simp only [hn] at h
  split at h
  · cases h; exact ⟨_, _, _, rfl⟩
  · unfold pollMiss at h
    split at h
    · split at h <;> cases h <;> exact ⟨_, _, _, rfl⟩
    · cases h

/-- A sub-step writes the line registers, SMPBIT, POLLCNT and, in a configuration operation, its flag at most, and the
free-value index: never BUSY, OUTCOME, ILLEGAL, ACKBIT, RDATA, RESULT or SEQ. -/
theorem perform_frame {a : Act} {s t : State} {fl : Flow} (h : perform a s = .ok (t, fl)) :
    ∃ l sm cc dc sc n, t = { s with
      lines := l, scratch := sc, fresh := n
      status := { s.status with smpBit := sm, clkCfg := cc, dataCfg := dc } } := by
  cases a <;> simp only [perform] at h
  case bitFirst =>
    split at h
    · cases h; split <;> exact ⟨_, _, _, _, _, _, rfl⟩
    · cases h
  case bitSecond =>
    split at h
    · cases h; split <;> exact ⟨_, _, _, _, _, _, rfl⟩
    · cases h
  case sample =>
    obtain ⟨n, hn⟩ := sample_state s
    cases h; rw [hn]; exact ⟨_, _, _, _, _, _, rfl⟩
  case ackClkLow =>
    obtain ⟨n, hn⟩ := readHeldBit_state s.status.ackBit s
    rw [hn] at h; cases h; exact ⟨_, _, _, _, _, _, rfl⟩
  case pollReady => obtain ⟨b, sc, n, rfl⟩ := pollOnce_frame h; exact ⟨_, _, _, _, _, _, rfl⟩
  case pollConversion => obtain ⟨b, sc, n, rfl⟩ := pollOnce_frame h; exact ⟨_, _, _, _, _, _, rfl⟩
  all_goals cases h; exact ⟨_, _, _, _, _, _, rfl⟩

/-! Steps of an operation. -/

/-- What `offer` can do (R87): reject, or issue an operation that R87 accepts. -/
theorem offer_cases (op : Instr) (s : State) :
    offer op s = reject s ∨
    (s.status.busy = false ∧ (needsConfig op = true → s.status.clkCfg = true ∧ s.status.dataCfg = true) ∧
      offer op s = issue op s) := by
  unfold offer
  split
  · exact .inl rfl
  · rename_i hb
    split
    · exact .inl rfl
    · rename_i hc
      refine .inr ⟨by simpa using hb, fun hn => ?_, rfl⟩
      by_contra hne
      exact hc ⟨hn, hne⟩

/-- What one step of an operation can do: offer it while SEQ is IDLE; reject it while another runs; end a raise; take
the sub-step at its index; or complete at its end. -/
theorem operate_cases {op : Instr} {p : MicroProgram} {s t : State} (h : operate op p s = .next t) :
    (s.seq = .idle ∧ t = offer op s) ∨
    (∃ op' k st, s.seq = .run op' k st ∧ op' ≠ op ∧ t = reject s) ∨
    (∃ k o, s.seq = .run op k (.raised o) ∧ t = complete o s) ∨
    (∃ k st sub s1 s2 fl, s.seq = .run op k st ∧ (∀ o, st ≠ .raised o) ∧ p.steps[k]? = some sub ∧
      assignAll (if st = .looping then [] else sub.pre) s = .ok s1 ∧ perform sub.act s1 = .ok (s2, fl) ∧
      t = s2.withSeq (nextSeq op k fl)) ∨
    (∃ st s1, s.seq = .run op p.steps.length st ∧ (∀ o, st ≠ .raised o) ∧ assignAll p.final s = .ok s1 ∧
      t = complete .ok s1) := by
  unfold operate at h
  split at h
  · cases h; exact .inl ⟨by assumption, rfl⟩
  · rename_i op' k st hseq
    split at h
    · rename_i heq
      subst heq
      unfold continueOp at h
      split at h
      · cases h; exact .inr (.inr (.inl ⟨_, _, hseq, rfl⟩))
      · rename_i hst
        split at h
        · rename_i sub hsub
          unfold takeSubStep at h
          split at h
          · cases h
          · rename_i s1 hs1
            split at h
            · cases h
            · rename_i s2 fl hs2
              cases h
              exact .inr (.inr (.inr (.inl ⟨k, st, sub, s1, s2, fl, hseq, hst, hsub, by simpa using hs1, hs2, rfl⟩)))
        · split at h
          · rename_i hk
            unfold finish at h
            split at h
            · cases h
            · rename_i s1 hs1
              cases h
              exact .inr (.inr (.inr (.inr ⟨st, s1, by rw [hseq, hk], hst, hs1, rfl⟩)))
          · cases h
    · cases h
      exact .inr (.inl ⟨op', k, st, hseq, by assumption, rfl⟩)

/-- The frame of a step of any operation: the parameters, DLY_COUNT, the host request port and the environment stay. -/
theorem operate_frame {op : Instr} {p : MicroProgram} {s t : State} (h : operate op p s = .next t) :
    t.cfg = s.cfg ∧ t.dlyCount = s.dlyCount ∧ t.port = s.port ∧ t.env = s.env := by
  rcases operate_cases h with ⟨-, rfl⟩ | ⟨_, _, _, -, -, rfl⟩ | ⟨_, _, -, rfl⟩ |
    ⟨_, _, _, s1, s2, _, -, -, -, ha, hp, rfl⟩ | ⟨_, s1, -, -, ha, rfl⟩
  · rcases offer_cases op s with h | ⟨-, -, h⟩ <;> rw [h] <;> exact ⟨rfl, rfl, rfl, rfl⟩
  · exact ⟨rfl, rfl, rfl, rfl⟩
  · exact ⟨rfl, rfl, rfl, rfl⟩
  · obtain ⟨_, _, _, _, _, _, _, rfl⟩ := assignAll_frame ha
    obtain ⟨_, _, _, _, _, _, rfl⟩ := perform_frame hp
    exact ⟨rfl, rfl, rfl, rfl⟩
  · obtain ⟨_, _, _, _, _, _, _, rfl⟩ := assignAll_frame ha
    exact ⟨rfl, rfl, rfl, rfl⟩

end Sys2Proof.Machine
end

