-- ==== Sys2Proof/Laws/PerInstr.lean ====
section
/-! SUPPORT. For every instruction: the code its encoder writes is well formed (30_encoding.md R80, R84, R85). -/

namespace Sys2Proof.Laws.Encoding

/-- The fields of an operation word, or a command byte, are well formed. -/
def codeWf : Code → Bool
  | .opw w => (fieldsOf w).wf
  | .cmd b => commandWf b

/-- The code that `encode` writes is well formed. -/
def Statement (i : Instr) : Prop := codeWf (encode i) = true

theorem cfgClkIdleLow : Statement .cfgClkIdleLow := rfl
theorem cfgDataReleased : Statement .cfgDataReleased := rfl
theorem clkHigh : Statement .clkHigh := rfl
theorem clkLow : Statement .clkLow := rfl
theorem dataPullLow : Statement .dataPullLow := rfl
theorem dataRelease : Statement .dataRelease := rfl
theorem sampleData : Statement .sampleData := rfl
theorem delayUnit : Statement .delayUnit := rfl
theorem start : Statement .start := rfl

theorem sendCmd (imm8 : Byte) : Statement (.sendCmd imm8) := by
  have h : ∀ b : Byte, codeWf (encode (.sendCmd b)) = true := by decide +kernel
  exact h imm8

theorem readByte (s : Bool) : Statement (.readByte s) := by cases s <;> rfl

theorem measure (imm8 : Byte) : Statement (.measure imm8) := by
  have h : ∀ b : Byte, codeWf (encode (.measure b)) = true := by decide +kernel
  exact h imm8

theorem cmdMeasureT : Statement .cmdMeasureT := rfl
theorem cmdMeasureRh : Statement .cmdMeasureRh := rfl
theorem cmdReadStatus : Statement .cmdReadStatus := rfl
theorem cmdWriteStatus : Statement .cmdWriteStatus := rfl
theorem cmdSoftReset : Statement .cmdSoftReset := rfl

end Sys2Proof.Laws.Encoding
end

