-- ==== Sys2Proof/Laws/Runs.lean ====
section
/-! SUPPORT. Runs of one operation: how they split, and how a stretch of sub-steps is run. -/

namespace Sys2Proof.Machine

@[simp] theorem setDrive_cfg (d : Drive) (s : State) : (setDrive d s).cfg = s.cfg := rfl
@[simp] theorem setDrive_lines (d : Drive) (s : State) : (setDrive d s).lines = s.lines := rfl
@[simp] theorem setDrive_status (d : Drive) (s : State) : (setDrive d s).status = s.status := rfl
@[simp] theorem setDrive_scratch (d : Drive) (s : State) : (setDrive d s).scratch = s.scratch := rfl
@[simp] theorem setDrive_seq (d : Drive) (s : State) : (setDrive d s).seq = s.seq := rfl
@[simp] theorem setDrive_rdata (d : Drive) (s : State) : (setDrive d s).rdata = s.rdata := rfl
@[simp] theorem setDrive_result (d : Drive) (s : State) : (setDrive d s).result = s.result := rfl
@[simp] theorem setDrive_fresh (d : Drive) (s : State) : (setDrive d s).fresh = s.fresh := rfl
@[simp] theorem setDrive_port (d : Drive) (s : State) : (setDrive d s).port = s.port := rfl
@[simp] theorem setDrive_sensDrv (d : Drive) (s : State) : (setDrive d s).env.sensDrv = d := rfl

@[simp] theorem runOp_nil (i : Instr) (s : State) : runOp i [] s = .next s := rfl

/-- A run that starts with a step that answers goes on from there. -/
theorem runOp_cons {i : Instr} {d : Drive} {ds : List Drive} {s t : State} (h : exec i (setDrive d s) = .next t) :
    runOp i (d :: ds) s = runOp i ds t := by
  simp [runOp, h]

/-- A run splits where its list of drives does. -/
theorem runOp_append {i : Instr} {as bs : List Drive} {s t : State} (h : runOp i as s = .next t) :
    runOp i (as ++ bs) s = runOp i bs t := by
  induction as generalizing s with
  | nil => cases h; rfl
  | cons d ds ih =>
    simp only [runOp, List.cons_append] at h ⊢
    split at h
    · rename_i s1 h1; exact ih h
    · cases h
    · cases h

/-- The sub-steps of a list, each of which goes on to the next. -/
def runList : List SubStep → List Drive → State → Option State
  | [], [], s => some s
  | st :: sts, d :: ds, s =>
    match assignAll st.pre (setDrive d s) with
    | .error _ => none
    | .ok s1 =>
      match perform st.act s1 with
      | .ok (s2, .advance) => runList sts ds s2
      | _ => none
  | _, _, _ => none

theorem runList_append {as bs : List SubStep} {ds es : List Drive} {s t : State} (h : runList as ds s = some t) :
    runList (as ++ bs) (ds ++ es) s = runList bs es t := by
  induction as generalizing ds s with
  | nil => cases ds <;> simp [runList] at h; subst h; rfl
  | cons st sts ih =>
    cases ds with
    | nil => simp [runList] at h
    | cons d ds =>
      simp only [runList, List.cons_append] at h ⊢
      split at h
      · cases h
      · split at h
        · exact ih h
        · cases h

/-! No assignment and no sub-step reads or writes SEQ. -/

/-- A result with another sequencer. -/
def exceptSeq (q : Seq) : Except Fault State → Except Fault State
  | .ok s => .ok (s.withSeq q)
  | .error f => .error f

/-- A sub-step's result with another sequencer. -/
def exceptSeqFlow (q : Seq) : Except Fault (State × Flow) → Except Fault (State × Flow)
  | .ok (s, fl) => .ok (s.withSeq q, fl)
  | .error f => .error f

theorem readHeldBit_withSeq (h : Held Bool) (s : State) (q : Seq) :
    readHeldBit h (s.withSeq q) = ((readHeldBit h s).1, (readHeldBit h s).2.withSeq q) := by
  cases h <;> rfl

theorem assign_withSeq (u : Upd) (s : State) (q : Seq) : assign u (s.withSeq q) = exceptSeq q (assign u s) := by
  cases u <;>
    simp only [assign, getCmd, getBitCnt, getAcc, lastSample, State.withSeq_scratch, State.withSeq_status,
      State.withSeq_rdata]
  case shiftCmd => cases s.scratch.cmd <;> rfl
  case incBitCnt => cases s.scratch.bitCnt <;> rfl
  case ackFromSample => cases s.status.smpBit <;> rfl
  case shiftInSample => cases s.scratch.acc <;> cases s.status.smpBit <;> rfl
  case rdataFromAcc => cases s.scratch.acc <;> rfl
  case resultFromBytes => cases s.scratch.acc <;> cases s.rdata <;> rfl
  all_goals rfl

theorem assignAll_withSeq (us : List Upd) (s : State) (q : Seq) :
    assignAll us (s.withSeq q) = exceptSeq q (assignAll us s) := by
  induction us generalizing s with
  | nil => rfl
  | cons u us ih =>
    simp only [assignAll, assign_withSeq]
    cases h : assign u s with
    | ok t => simpa [exceptSeq] using ih t
    | error f => rfl

theorem sample_withSeq (s : State) (q : Seq) : sample (s.withSeq q) = ((sample s).1, (sample s).2.withSeq q) := by
  by_cases h1 : s.lines.dataDir = .out
  · simp [sample, h1, drawBit]; rfl
  · by_cases h2 : s.env.sensDrv = .low
    · simp [sample, busData, h1, h2]; rfl
    · by_cases h3 : s.lines.dataPue = true ∨ s.cfg.params.extPullup = true
      · simp [sample, busData, h1, h2, h3]; rfl
      · simp [sample, busData, h1, h2, h3, drawBit]; rfl

theorem pollOnce_withSeq (level : Bool) (b : Bound) (s : State) (q : Seq) :
    pollOnce level b (s.withSeq q) = exceptSeqFlow q (pollOnce level b s) := by
  unfold pollOnce
  rw [sample_withSeq]
  simp only
  split
  · rfl
  · simp only [pollMiss, getPollCnt, State.withSeq_scratch]
    cases (sample s).2.scratch.pollCnt with
    | none => rfl
    | some n => simp only; split <;> rfl

theorem perform_withSeq (a : Act) (s : State) (q : Seq) :
    perform a (s.withSeq q) = exceptSeqFlow q (perform a s) := by
  cases a <;> simp only [perform, getCmd, State.withSeq_scratch, State.withSeq_status, State.withSeq_cfg]
  case bitFirst => cases s.scratch.cmd with
    | none => rfl
    | some c => simp only; split <;> rfl
  case bitSecond => cases s.scratch.cmd with
    | none => rfl
    | some c => simp only; split <;> rfl
  case sample => rw [sample_withSeq]; rfl
  case ackClkLow => simp only [readHeldBit_withSeq]; rfl
  case pollReady => exact pollOnce_withSeq ..
  case pollConversion => exact pollOnce_withSeq ..
  all_goals rfl

/-- What an instruction's step is: a step of an operation with its micro-program. An operation is its own; a command byte
is the SEND_CMD of its byte. -/
theorem exec_eq_operate (i : Instr) :
    ∃ op p, programOf op = some p ∧ (programOf i ≠ none → op = i) ∧
      (∀ c, programOf i = none → commandOf i = some c → op = .sendCmd c) ∧ commandOf op = commandOf i ∧
      needsConfig op = needsConfig i ∧ (∀ b, op = .measure b → i = .measure b) ∧
      ∀ s, exec i s = operate op p s := by
  cases i
  case cmdMeasureT => exact ⟨.sendCmd 0x03, _, rfl, by simp [programOf], by simp [commandOf], rfl, rfl, by simp, fun _ => rfl⟩
  case cmdMeasureRh => exact ⟨.sendCmd 0x05, _, rfl, by simp [programOf], by simp [commandOf], rfl, rfl, by simp, fun _ => rfl⟩
  case cmdReadStatus => exact ⟨.sendCmd 0x07, _, rfl, by simp [programOf], by simp [commandOf], rfl, rfl, by simp, fun _ => rfl⟩
  case cmdWriteStatus => exact ⟨.sendCmd 0x06, _, rfl, by simp [programOf], by simp [commandOf], rfl, rfl, by simp, fun _ => rfl⟩
  case cmdSoftReset => exact ⟨.sendCmd 0x1E, _, rfl, by simp [programOf], by simp [commandOf], rfl, rfl, by simp, fun _ => rfl⟩
  all_goals exact ⟨_, _, rfl, fun _ => rfl, fun c h => by simp [programOf] at h, rfl, rfl, fun _ h => h, fun _ => rfl⟩

/-- A run of an instruction whose steps are those of operation `op`, over sub-steps each of which goes on to the next. -/
theorem runOp_of_runList {i op : Instr} {p : MicroProgram} (hexec : ∀ s, exec i s = operate op p s)
    {l rest : List SubStep} {ds : List Drive} {k : Nat} {s t : State} (hk : p.steps.drop k = l ++ rest)
    (hs : s.seq = .run op k .fresh) (h : runList l ds s = some t) :
    runOp i ds s = .next (t.withSeq (.run op (k + l.length) .fresh)) := by
  have key : ∀ (l : List SubStep) (k : Nat) (ds : List Drive) (s t : State), p.steps.drop k = l ++ rest →
      runList l ds s = some t →
      runOp i ds (s.withSeq (.run op k .fresh)) = .next (t.withSeq (.run op (k + l.length) .fresh)) := by
    intro l
    induction l with
    | nil =>
      intro k ds s t _ h
      cases ds <;> simp [runList] at h
      subst h; rfl
    | cons st sts ih =>
      intro k ds s t hk h
      cases ds with
      | nil => simp [runList] at h
      | cons d ds =>
        have hget : p.steps[k]? = some st := by
          have := congrArg List.head? hk
          simpa [List.head?_drop] using this
        have hdrop : p.steps.drop (k + 1) = sts ++ rest := by
          have := congrArg List.tail hk
          simpa [List.tail_drop] using this
        simp only [runList] at h
        split at h
        · cases h
        · rename_i s1 h1
          split at h
          · rename_i s2 h2
            have hstep : exec i (setDrive d (s.withSeq (.run op k .fresh))) =
                .next (s2.withSeq (.run op (k + 1) .fresh)) := by
              rw [hexec]
              have e : setDrive d (s.withSeq (.run op k .fresh)) = (setDrive d s).withSeq (.run op k .fresh) := rfl
              rw [e]
              simp only [operate, State.withSeq_seq, if_true, continueOp, hget, takeSubStep, assignAll_withSeq,
                exceptSeq, reduceCtorEq, decide_false, Bool.false_eq_true, if_false, h1, perform_withSeq, h2,
                exceptSeqFlow, nextSeq]
              rfl
            rw [runOp_cons hstep, ih (k + 1) ds s2 t hdrop h]
            simp only [List.length_cons]
            congr 3
            omega
          · cases h
  have := key l k ds s t hk h
  have e : s.withSeq (.run op k .fresh) = s := by rw [← hs]; rfl
  rwa [e] at this

end Sys2Proof.Machine
end

