-- ==== Sys2Proof/Tests/Slice0.lean ====
section
/-! SUPPORT. The model's own tests: ill-formed terms refused, words written out from the spec's encodings, the spec's own
vectors (95_test_vectors.md), one step of each instruction, and a witness for each statement that has hypotheses. -/

namespace Sys2Proof.Tests

open Sys2Proof.Machine

/-! WellFormed refuses an ill-formed term, one for each check. -/

theorem test_wf_op_zero : OpFields.wf { op := 0x0, rsv := 0, s := false, imm8 := 0 } = false := by decide
theorem test_wf_op_thirteen : OpFields.wf { op := 0xD, rsv := 0, s := false, imm8 := 0 } = false := by decide
theorem test_wf_rsv : OpFields.wf { op := 0x3, rsv := 1, s := false, imm8 := 0 } = false := by decide
theorem test_wf_s : OpFields.wf { op := 0xA, rsv := 0, s := true, imm8 := 0x03 } = false := by decide
theorem test_wf_imm8 : OpFields.wf { op := 0x9, rsv := 0, s := false, imm8 := 0x01 } = false := by decide
theorem test_wf_good : OpFields.wf { op := 0xB, rsv := 0, s := true, imm8 := 0 } = true := by decide
theorem test_wf_prefix : prefixOk 0b00100011 = false ∧ commandWf 0b00100011 = false := by decide
theorem test_wf_command : prefixOk 0x04 = true ∧ commandNamed 0x04 = false ∧ commandWf 0x04 = false := by decide

/-! Decoding: each constructor's word, bit by bit from R80 and R81 (OP RSV S IMM8), and R85's bytes (prefix, field). -/

theorem test_decode_line_controller :
    decode (.opw 0b0001_000_0_00000000) = .ok .cfgClkIdleLow ∧
    decode (.opw 0b0010_000_0_00000000) = .ok .cfgDataReleased ∧
    decode (.opw 0b0011_000_0_00000000) = .ok .clkHigh ∧ decode (.opw 0b0100_000_0_00000000) = .ok .clkLow ∧
    decode (.opw 0b0101_000_0_00000000) = .ok .dataPullLow ∧
    decode (.opw 0b0110_000_0_00000000) = .ok .dataRelease ∧
    decode (.opw 0b0111_000_0_00000000) = .ok .sampleData := by decide

theorem test_decode_transaction :
    decode (.opw 0b1000_000_0_00000000) = .ok .delayUnit ∧ decode (.opw 0b1001_000_0_00000000) = .ok .start ∧
    decode (.opw 0b1010_000_0_00011110) = .ok (.sendCmd 0x1E) ∧
    decode (.opw 0b1011_000_0_00000000) = .ok (.readByte false) ∧
    decode (.opw 0b1011_000_1_00000000) = .ok (.readByte true) ∧
    decode (.opw 0b1100_000_0_10000101) = .ok (.measure 0x85) := by decide

theorem test_decode_commands :
    decode (.cmd 0b000_00011) = .ok .cmdMeasureT ∧ decode (.cmd 0b000_00101) = .ok .cmdMeasureRh ∧
    decode (.cmd 0b000_00111) = .ok .cmdReadStatus ∧ decode (.cmd 0b000_00110) = .ok .cmdWriteStatus ∧
    decode (.cmd 0b000_11110) = .ok .cmdSoftReset ∧ decode (.cmd 0b001_00011) = .error .unknownCommand := by decide

/-- V4 to V10: rejected words, one for each condition of R83 and the assigned numbers' edges. -/
theorem test_decode_rejects :
    decode (.opw 0x0000) = .error .reservedOp ∧ decode (.opw 0xD000) = .error .reservedOp ∧
    decode (.opw 0xE000) = .error .reservedOp ∧ decode (.opw 0xF000) = .error .reservedOp ∧
    decode (.opw 0x9001) = .error .unusedImm8 ∧ decode (.opw 0xB001) = .error .unusedImm8 ∧
    decode (.opw 0x1001) = .error .unusedImm8 ∧ decode (.opw 0xA103) = .error .unusedS ∧
    decode (.opw 0x3200) = .error .reservedBits ∧ decode (.opw 0xB800) = .error .reservedBits := by decide

theorem test_decode_table_word :
    decodeTableWord 16 0xA003 = some (.sendCmd 0x03) ∧ decodeTableWord 8 0x1E = some .cmdSoftReset ∧
    decodeTableWord 16 0xD000 = none ∧ decodeTableWord 8 0x23 = none := by decide

/-! Calibration: V30 to V36. -/

theorem test_v30_to_v35 :
    delayCount 1000 16000000 4 = 4 ∧ delayCount 1000 12000000 3 = 4 ∧ delayCount 1000 20000000 3 = 7 ∧
    delayCount 1000 1000000 4 = 1 ∧ delayCount 1 1000000 1 = 1 ∧ delayCount 65535 1000000000 1 = 65535 := by decide

theorem test_v35_accepted :
    (Config.ofParams? { tUnitNs := 65535, fCpuHz := 1000000000, cyclesPerIter := 1 }).map calibrate = some 0xFFFF := by
  decide

theorem test_v36_refused :
    Config.ofParams? { tUnitNs := 65536, fCpuHz := 1000000000, cyclesPerIter := 1 } = none := by decide

/-- R5: a bound of 0 and two equal request codes are no configuration. -/
theorem test_ill_formed_configurations :
    Config.ofParams? { readyBound := .samples 0 } = none ∧ Config.ofParams? { cyclesPerIter := 0 } = none ∧
    Config.ofParams? { reqGetHum := 0 } = none ∧ Config.ofParams? { reqCodeWidth := 2 } = none := by decide

/-! States for the tests. -/

/-- A board with both polls bounded and no external pull-up. -/
def bounded : Config := { params := { readyBound := .samples 2, convBound := .samples 2 } }

/-- A board with an external pull-up and unbounded polls. -/
def pulledUp : Config := { params := { extPullup := true } }

/-- Right after reset, on a given board, the sensor releasing. -/
def quiet (c : Config) : State :=
  { cfg := c, lines := resetLines, status := resetStatus, scratch := noScratch, seq := .idle, rdata := .unspecified
    result := .unspecified, dlyCount := calibrate c, port := resetPort
    env := { sensDrv := .release, agenda := [], inbox := [], readData := none, responses := [] }, fresh := 0 }

/-- Both lines configured, at given levels, the sensor at a given drive. -/
def ready (l : Lines) (d : Drive) (c : Config := {}) : State :=
  { quiet c with
    lines := l
    status := { resetStatus with
      clkCfg := true, dataCfg := true, clkCfgDone := true, dataCfgDone := true, ackBit := .val true, smpBit := .val false }
    rdata := .val 0x77, result := .val 0x5566
    env := { sensDrv := d, agenda := [], inbox := [], readData := none, responses := [] } }

/-- CLK low, DATA RELEASED. -/
def idleBus : Lines := { clkDir := .out, clkLvl := false, dataDir := .inp, dataPue := true }

/-- CLK low, DATA DRIVEN_LOW. -/
def drivenBus : Lines := { clkDir := .out, clkLvl := false, dataDir := .out, dataPue := false }

/-- An operation running at an index. -/
def running (op : Instr) (k : Nat) (sc : Scratch) (l : Lines) (d : Drive) (c : Config := {}) : State :=
  let s := ready l d c
  { s with status := { s.status with busy := true }, seq := .run op k .fresh, scratch := sc }

/-- A configuration operation at its completion step, the other one not yet issued. -/
def completing (op : Instr) : State :=
  { running op 2 noScratch idleBus .release with
    status := { resetStatus with
      busy := true, clkCfg := decide (op = .cfgClkIdleLow), dataCfg := decide (op = .cfgDataReleased) } }

/-- CMD and BITCNT held. -/
def sending (c : Byte) : Scratch := { cmd := some c, acc := none, bitCnt := some 0, pollCnt := none }

/-- ACC and BITCNT held. -/
def receiving (v : Byte) : Scratch := { cmd := none, acc := some v, bitCnt := some 0, pollCnt := none }

/-- What a step leaves of a state, where it answers one. -/
def after {α : Type} (r : Result) (f : State → α) : Option α :=
  match r with
  | .next s => some (f s)
  | _ => none

/-! One step of each instruction, the expected values from the rules' pseudocode. -/

/-- R100, R25: sub-step 2 turns CLK to an output and assigns CLKCFG, and the completion makes it read 1. -/
theorem test_cfgClkIdleLow :
    after (exec .cfgClkIdleLow { quiet {} with seq := .run .cfgClkIdleLow 1 .fresh }) (fun t => (t.lines.clkDir, t.status.clkCfg, clkCfgRead t.status))
      = some (.out, true, false) ∧
    after (exec .cfgClkIdleLow (completing .cfgClkIdleLow)) (fun t => (t.status.outcome, clkCfgRead t.status))
      = some (.ok, true) := by decide

/-- R101, R25: sub-step 2 enables the pull-up and assigns DATACFG, and the completion makes it read 1. -/
theorem test_cfgDataReleased :
    after (exec .cfgDataReleased { quiet {} with seq := .run .cfgDataReleased 1 .fresh }) (fun t => (t.lines.dataPue, t.status.dataCfg, dataCfgRead t.status))
      = some (true, true, false) ∧
    after (exec .cfgDataReleased (completing .cfgDataReleased)) (fun t => (t.status.outcome, dataCfgRead t.status))
      = some (.ok, true) := by decide

theorem test_clkHigh : after (exec .clkHigh (running .clkHigh 0 noScratch idleBus .release)) (fun t => t.lines.clkLvl)
    = some true := by decide

theorem test_clkLow :
    after (exec .clkLow (running .clkLow 0 noScratch { idleBus with clkLvl := true } .release)) (fun t => t.lines.clkLvl)
      = some false := by decide

/-- R102: the pull-up goes off before the line turns to output. -/
theorem test_dataPullLow :
    after (exec .dataPullLow (running .dataPullLow 0 noScratch idleBus .release)) (fun t => (t.lines.dataDir, t.lines.dataPue))
      = some (.inp, false) := by decide

/-- R103: the line turns to input before the pull-up goes on. -/
theorem test_dataRelease :
    after (exec .dataRelease (running .dataRelease 0 noScratch drivenBus .release)) (fun t => (t.lines.dataDir, t.lines.dataPue))
      = some (.inp, false) := by decide

/-- V19c, V19d. -/
theorem test_sampleData :
    after (exec .sampleData (running .sampleData 0 noScratch idleBus .low)) (fun t => t.status.smpBit) = some (.val false) ∧
    after (exec .sampleData (running .sampleData 0 noScratch idleBus .release)) (fun t => t.status.smpBit)
      = some (.val true) := by decide

/-- R123: nothing but SEQ changes at the delay. -/
theorem test_delayUnit :
    after (exec .delayUnit (running .delayUnit 0 noScratch idleBus .low)) (fun t => t.withSeq .idle)
      = some ((running .delayUnit 0 noScratch idleBus .low).withSeq .idle) := by decide

/-- R136: sub-step 4 pulls DATA low while CLK is high. -/
theorem test_start :
    after (exec .start (running .start 3 noScratch { idleBus with clkLvl := true, dataPue := false } .release))
      (fun t => (t.lines.clkLvl, t.lines.dataDir)) = some (true, .out) := by decide

/-- R141: the first bit of 0x80 is a 1; CMD and BITCNT are loaded with it. -/
theorem test_sendCmd_first_bit :
    after (exec (.sendCmd 0x80) (running (.sendCmd 0x80) 14 noScratch drivenBus .release))
      (fun t => (t.lines.dataDir, t.scratch.cmd, t.scratch.bitCnt)) = some (.inp, some 0x80, some 0) := by decide

/-- R142: a sample of 1 raises NACK at the ninth pulse's falling edge, which still happens. -/
theorem test_sendCmd_nack :
    after (exec (.sendCmd 0x03) { running (.sendCmd 0x03) 68 (sending 0) { idleBus with clkLvl := true } .release with
      status := { (ready idleBus .release).status with busy := true, smpBit := .val true, ackBit := .val false } })
      (fun t => (t.seq, t.lines.clkLvl, t.status.ackBit))
      = some (.run (.sendCmd 0x03) 68 (.raised .nack), false, .val true) := by decide

/-- R147: the accumulator shifts left and takes the sample in bit 0. -/
theorem test_readByte_shift :
    after (exec (.readByte true) { running (.readByte true) 4 (receiving 0xC1) idleBus .release with
      status := { (ready idleBus .release).status with busy := true, smpBit := .val true } })
      (fun t => (t.scratch.acc, t.scratch.bitCnt)) = some (some 0x83, some 1) := by decide

/-- R147: with s = 0 the engine's acknowledgment follows the 8th bit; with s = 1 it does not. -/
theorem test_readByte_ack :
    after (exec (.readByte false) (running (.readByte false) 41 (receiving 0) { idleBus with dataPue := false } .release))
      (fun t => t.lines.dataDir) = some .out ∧
    after (exec (.readByte true) (running (.readByte true) 41 (receiving 0) idleBus .release)) (fun t => t.lines.dataDir)
      = some .inp := by decide

/-- R171: the completion step writes RESULT = {hi, lo} and RDATA = lo. -/
theorem test_measure_result :
    after (exec (.measure 0x03) { running (.measure 0x03) 167 (receiving 0x34) idleBus .release with rdata := .val 0x12 })
      (fun t => (t.result, t.rdata, t.status.outcome)) = some (.val 0x1234, .val 0x34, .ok) := by decide +kernel

/-- R146: a conversion poll whose sample is high stays at its index and counts. -/
theorem test_measure_poll :
    after (exec (.measure 0x03) (running (.measure 0x03) 70 (sending 0) idleBus .release)) (fun t => (t.seq, t.scratch.pollCnt))
      = some (.run (.measure 0x03) 70 .looping, some 1) := by decide

/-- R85: each command byte is issued as the SEND_CMD of its byte. -/
theorem test_commands_issue :
    after (exec .cmdMeasureT (ready idleBus .release)) (fun t => t.seq) = some (.run (.sendCmd 0x03) 0 .fresh) ∧
    after (exec .cmdMeasureRh (ready idleBus .release)) (fun t => t.seq) = some (.run (.sendCmd 0x05) 0 .fresh) ∧
    after (exec .cmdReadStatus (ready idleBus .release)) (fun t => t.seq) = some (.run (.sendCmd 0x07) 0 .fresh) ∧
    after (exec .cmdWriteStatus (ready idleBus .release)) (fun t => t.seq) = some (.run (.sendCmd 0x06) 0 .fresh) ∧
    after (exec .cmdSoftReset (ready idleBus .release)) (fun t => t.seq) = some (.run (.sendCmd 0x1E) 0 .fresh) := by
  decide

/-! The port, the reset and the first instruction. -/

/-- V2: START right after reset is rejected with ILLEGAL = 1; OUTCOME stays NONE. -/
theorem test_v2 :
    after (step (State.reset.withFetchWord 16 0x9000)) (fun t => (t.seq, t.status.illegal, t.status.outcome))
      = some (.idle, true, .none) := by decide

/-- V1: CFG_CLK_IDLE_LOW is issued right after reset. -/
theorem test_v1 :
    after (step (State.reset.withFetchWord 16 0x1000)) (fun t => (t.seq, t.status.busy, t.status.illegal))
      = some (.run .cfgClkIdleLow 0 .fresh, true, false) := by decide

/-- V13: any word written while busy sets ILLEGAL, and the running MEASURE stays where it is. -/
theorem test_v13 :
    after (portWrite 0 2 0x0000 (running (.measure 0x03) 5 noScratch idleBus .release)) (fun t => (t.seq, t.status.illegal))
      = some (.run (.measure 0x03) 5 .fresh, true) := by decide

/-- V15: OPW reads 0 and starts nothing; CAL reads the count. -/
theorem test_v15 :
    after (portRead 0 2 (ready idleBus .release)) (fun t => (t.env.readData, t.seq)) = some (some 0x0000, .idle) ∧
    after (portRead 5 2 (ready idleBus .release)) (fun t => t.env.readData) = some (some 0x0004) := by decide

/-- V17: LINES = 0x00A1 on the idle bus, and STATUS = 0x00C2 with ACKBIT and SMPBIT 0. -/
theorem test_v17 :
    (readLines (ready idleBus .release)).1 = 0x00A1 ∧
    statusLayout { (ready idleBus .release).status with outcome := .ok } false false = 0x00C2 := by decide

/-- V17a: with an external pull-up, LINES = 0x0081 while DATA is TRANSIENT after reset and CLK is configured. -/
theorem test_v17a :
    (readLines { quiet pulledUp with lines := { idleBus with dataPue := false } }).1 = 0x0081 := by decide

/-- V65, R63, R36: an echo request and an access of another width are refused by name. -/
theorem test_refusals :
    servePort { ready idleBus .release with
      env := { (ready idleBus .release).env with inbox := [{ code := 2, w0 := 0, w1 := 0 }] } }
      = .refused (.requestOutOfScope 2) ∧
    portRead 1 1 (ready idleBus .release) = .refused (.accessWidth 1) ∧
    presentRequest { code := 8, w0 := 0, w1 := 0 } (ready idleBus .release) = .refused (.requestCodeWidth 8) := by
  refine ⟨rfl, rfl, rfl⟩

/-- R93, R94: lines of assembler text, with a comment and a decimal number; ill-formed lines assemble to nothing. -/
theorem test_assembler :
    assembleCodes {} "  MEASURE MEASURE_T_CMD ; go" = some [.opw 0xC003] ∧ assembleCodes {} "; only" = some [] ∧
    assembleCodes {} "SEND_CMD 30" = some [.opw 0xA01E] ∧ assembleCodes {} "SEND_CMD 256" = none ∧
    assembleCodes {} "START 1" = none := by decide

/-! Witnesses: a concrete state and operands that meet each statement's hypotheses together, clause by clause. -/

theorem ready_idle : Ready (ready idleBus .release) := ⟨⟨rfl, rfl⟩, rfl, rfl⟩
theorem ready_driven : Ready (ready drivenBus .low) := ⟨⟨rfl, rfl⟩, rfl, rfl⟩
theorem ready_bounded : Ready (ready drivenBus .low bounded) := ⟨⟨rfl, rfl⟩, rfl, rfl⟩

/-- Drives that present a byte at a byte read's samples, `n` steps in all. -/
def presenting (v : Byte) (n : Nat) : List Drive :=
  (List.range n).map (fun i => if i % 5 = 3 ∧ i < 40 then driveOf (v.getLsbD (7 - i / 5)) else .low)

/-- 70 drives, the one at index 68 given. -/
def commandDrives (d : Drive) : List Drive := List.replicate 68 .low ++ [d, .release]

theorem witness_EncodeOfDecodeIsTheCode :
    decode (.opw 0xA0FF) = .ok (.sendCmd 0xFF) ∧ decode (.cmd 0x1E) = .ok .cmdSoftReset := by decide

/-- Every operation's clause, at its word and at the operand's ends; both sides of the equivalence. -/
theorem witness_DecodingRejectsOnFourConditions :
    decode (.opw 0x1000) = .ok .cfgClkIdleLow ∧ decode (.opw 0xA000) = .ok (.sendCmd 0x00) ∧
    decode (.opw 0xA0FF) = .ok (.sendCmd 0xFF) ∧ decode (.opw 0xB100) = .ok (.readByte true) ∧
    decode (.opw 0xC0FF) = .ok (.measure 0xFF) ∧ decode (.opw 0xCFFF) = .error .reservedBits := by decide

theorem witness_FiveCommandBytes : decode (.cmd 0x03) = .ok .cmdMeasureT ∧ decode (.cmd 0x1E) = .ok .cmdSoftReset := by
  decide

theorem witness_OpwWriteIsHandledInOrder :
    ((ready idleBus .low).status.busy = true ↔ (ready idleBus .low).seq ≠ .idle) ∧
    ((running .start 3 noScratch idleBus .low).status.busy = true ↔ (running .start 3 noScratch idleBus .low).seq ≠ .idle) ∧
    ((quiet {}).status.busy = true ↔ (quiet {}).seq ≠ .idle) := by decide

theorem witness_IgnoredWordLeavesTheOperationRunning :
    (running .start 3 noScratch idleBus .low).seq = .run .start 3 .fresh ∧
    ∃ t, exec .start (running .start 3 noScratch idleBus .low) = .next t := ⟨rfl, _, rfl⟩

theorem witness_UnconfiguredOperationsAreRejected :
    Quiet (quiet {}) ∧ (quiet {}).status.clkCfg = false ∧
    Quiet { quiet {} with status := { resetStatus with clkCfg := true } } := ⟨⟨rfl, rfl⟩, rfl, rfl, rfl⟩

theorem witness_ReadyEngineIssues :
    Ready (ready idleBus .release) ∧ programOf .start ≠ none ∧ programOf .cmdMeasureT = none ∧
    commandOf .cmdMeasureT = some 0x03 := ⟨ready_idle, by simp [programOf], rfl, rfl⟩

/-- The five clauses' states. -/
theorem witness_StepRunsTheDecodedInstruction :
    ((setAgenda [.write 0 2 0x9000] (ready idleBus .low)).env.agenda = [.write 0 2 0x9000] ∧
      decode (.opw 0x9000) = .ok .start ∧ (ready idleBus .low).status.busy = false) ∧
    ((setAgenda [.command 0x1E] (ready idleBus .low)).env.agenda = [.command 0x1E] ∧
      decode (.cmd 0x1E) = .ok .cmdSoftReset) ∧
    ((setAgenda [.engine] (running .start 3 noScratch idleBus .low)).env.agenda = [.engine] ∧
      (setAgenda [.engine] (running .start 3 noScratch idleBus .low)).seq = .run .start 3 .fresh) ∧
    ((running .start 3 noScratch idleBus .low).env.agenda = [] ∧
      (running .start 3 noScratch idleBus .low).seq = .run .start 3 .fresh) := by decide

theorem witness_RaisedOperationCompletes :
    programOf (.sendCmd 0x03) ≠ none ∧
    ({ running (.sendCmd 0x03) 68 (sending 0) idleBus .low with seq := .run (.sendCmd 0x03) 68 (.raised .nack) }).seq
      = .run (.sendCmd 0x03) 68 (.raised .nack) := ⟨by simp [programOf], rfl⟩

theorem witness_PlainOperationsCompleteWithOk :
    programOf .start ≠ none ∧ commandOf .start = none ∧
    (∃ t, exec .start (running .start 3 noScratch idleBus .low) = .next t) ∧
    (∃ t, exec .start (running .start 14 noScratch idleBus .low) = .next t ∧ t.seq = .idle) :=
  ⟨by simp [programOf], rfl, ⟨_, rfl⟩, ⟨_, rfl, rfl⟩⟩

/-- For CfgClkIdleLowConfiguresClk and CfgDataReleasedConfiguresData. -/
theorem witness_Configuration : Quiet (quiet {}) ∧ Quiet (ready drivenBus .low) := ⟨⟨rfl, rfl⟩, rfl, rfl⟩

/-- For ClkHighAndClkLowDriveClk, DataPullLowPullsInOrder, DataReleaseReleasesInOrder and DelayUnitChangesNoLine, whose
run clauses assume Ready alone. -/
theorem witness_Ready : Ready (ready idleBus .release) ∧ Ready (ready drivenBus .low) := ⟨ready_idle, ready_driven⟩

/-- Drawn because driven, drawn because floating, and not drawn at either level. -/
theorem witness_SampleDataReadsTheLine :
    (Ready (ready drivenBus .low) ∧ (ready drivenBus .low).lines.dataDir = .out) ∧
    (Ready (ready { idleBus with dataPue := false } .release) ∧
      (ready { idleBus with dataPue := false } .release).lines.dataPue = false ∧
      (ready { idleBus with dataPue := false } .release).cfg.params.extPullup = false) ∧
    (Ready (ready idleBus .release) ∧ (ready idleBus .release).lines.dataDir = .inp ∧
      (ready idleBus .release).lines.dataPue = true) :=
  ⟨⟨ready_driven, rfl⟩, ⟨⟨⟨rfl, rfl⟩, rfl, rfl⟩, rfl, rfl⟩, ready_idle, rfl, rfl⟩

/-- R34's cases: driven, pulled up inside, pulled up outside, floating; CLK driven and floating. -/
theorem witness_BusLevelsFollowTheLineRegisters :
    (ready drivenBus .release).lines.dataDir = .out ∧ (ready idleBus .release).lines.dataPue = true ∧
    (quiet pulledUp).cfg.params.extPullup = true ∧ (quiet pulledUp).lines.dataPue = false ∧
    (quiet {}).cfg.params.extPullup = false ∧ (quiet {}).lines.dataPue = false ∧ (quiet {}).env.sensDrv = .release ∧
    (ready idleBus .low).lines.clkDir = .out ∧ (quiet {}).lines.clkDir = .inp := by decide

theorem witness_StartLeavesTheIdleBus : Ready (ready drivenBus .low) ∧ (List.replicate 15 Drive.low).length = 15 :=
  ⟨ready_driven, rfl⟩

theorem witness_StartHasTheStartShape : Ready (ready idleBus .release) ∧ BusIdle (ready idleBus .release) :=
  ⟨ready_idle, rfl, rfl, rfl, rfl⟩

/-- The first and the last bit. -/
theorem witness_CommandBitsAreSentMsbFirst :
    commandOf .cmdWriteStatus = some 0x06 ∧ Ready (ready drivenBus .low) ∧
    (List.replicate 18 Drive.low).length = 18 + 6 * 0 ∧ (List.replicate 60 Drive.low).length = 18 + 6 * 7 :=
  ⟨rfl, ready_driven, rfl, rfl⟩

theorem witness_UnacknowledgedCommandEndsWithNack :
    commandOf (.measure 0x03) = some 0x03 ∧ Ready (ready drivenBus .low) ∧ (commandDrives .release).length = 70 ∧
    (commandDrives .release)[68]? = some .release := ⟨rfl, ready_driven, rfl, rfl⟩

/-- Unbounded, and at the last sample that a bound of 2 allows. -/
theorem witness_AcknowledgedCommandEndsWithOk :
    commandOf .cmdSoftReset = some 0x1E ∧ (∀ b, Instr.cmdSoftReset ≠ .measure b) ∧ Ready (ready drivenBus .low) ∧
    Ready (ready drivenBus .low bounded) ∧ (commandDrives .low).length = 70 ∧ (commandDrives .low)[68]? = some .low ∧
    Admits (ready drivenBus .low).cfg.params.readyBound 5 ∧ Admits (ready drivenBus .low bounded).cfg.params.readyBound 1 :=
  ⟨rfl, by simp, ready_driven, ready_bounded, rfl, rfl, .inl rfl, .inr ⟨2, rfl, by decide⟩⟩

theorem witness_ExpiredReadyPollEndsWithTimeout :
    commandOf (.sendCmd 0x00) = some 0x00 ∧ Ready (ready drivenBus .low bounded) ∧ (commandDrives .low).length = 70 ∧
    (commandDrives .low)[68]? = some .low ∧ (ready drivenBus .low bounded).cfg.params.readyBound = .samples 2 :=
  ⟨rfl, ready_bounded, rfl, rfl, rfl⟩

/-- With s = 0 and its own pull-up, and with s = 1 and an external one only. -/
theorem witness_ReadByteReturnsThePresentedByte :
    (Ready (ready idleBus .low) ∧ (ready idleBus .low).lines.dataDir = .inp ∧ (ready idleBus .low).lines.dataPue = true ∧
      (presenting 0xA5 49).length = 49 ∧ Presents 0xA5 (presenting 0xA5 49)) ∧
    (Ready (ready { idleBus with dataPue := false } .low pulledUp) ∧
      (ready { idleBus with dataPue := false } .low pulledUp).cfg.params.extPullup = true ∧
      (presenting 0xFF 47).length = 47 ∧ Presents 0xFF (presenting 0xFF 47)) :=
  ⟨⟨⟨⟨rfl, rfl⟩, rfl, rfl⟩, rfl, rfl, rfl, by unfold Presents; decide⟩, ⟨⟨rfl, rfl⟩, rfl, rfl⟩, rfl, rfl,
    by unfold Presents; decide⟩

theorem witness_ReadByteWhileDrivingDraws :
    Ready (ready drivenBus .low) ∧ (ready drivenBus .low).lines.dataDir = .out ∧ (List.replicate 49 Drive.low).length = 49 ∧
    (List.replicate 47 Drive.low).length = 47 := ⟨ready_driven, rfl, rfl, rfl⟩

/-- The ends of the range of sub-steps. -/
theorem witness_ByteReadAcknowledgesForOneClockPulse :
    Ready (ready idleBus .release) ∧ Released (ready idleBus .release) ∧ (List.replicate 41 Drive.low).length = 40 + 1 ∧
    (List.replicate 50 Drive.low).length = 49 + 1 ∧ (List.replicate 48 Drive.low).length = 47 + 1 :=
  ⟨ready_idle, ⟨rfl, rfl⟩, rfl, rfl, rfl⟩

/-- A run that stands at the acknowledgment's sample, and one that stands at the ready poll. -/
theorem witness_CommandProgramsSampleOnlyWhileReleased :
    commandOf (.sendCmd 0x00) = some 0x00 ∧ Ready (ready drivenBus .low) ∧
    (∃ t, runOp (.sendCmd 0x00) (List.replicate 68 .low) (ready drivenBus .low) = .next t ∧ nextAct t = some .sample) ∧
    (∃ t, runOp (.sendCmd 0x00) (List.replicate 70 .low) (ready drivenBus .low) = .next t ∧ nextAct t = some .pollReady) :=
  ⟨rfl, ready_driven, ⟨_, rfl, rfl⟩, _, rfl, rfl⟩

theorem witness_TransactionsLeaveTheBusIdle :
    Ready (ready drivenBus .low) ∧ List.replicate 16 Drive.low ≠ [] ∧
    ∃ t, runOp .start (List.replicate 16 .low) (ready drivenBus .low) = .next t ∧ t.seq = .idle :=
  ⟨ready_driven, by simp, _, rfl, rfl⟩

/-- MEASURE's two polls, unbounded. -/
theorem witness_UnboundedPollsGoOnForEver :
    (programOf (.measure 0x03) = some (measureProgram 0x03) ∧
      (∃ sub, (measureProgram 0x03).steps[69]? = some sub ∧ sub.act = .pollReady) ∧
      (running (.measure 0x03) 69 (sending 0) idleBus .low).seq = .run (.measure 0x03) 69 .fresh ∧
      (running (.measure 0x03) 69 (sending 0) idleBus .low).lines.dataDir = .inp ∧
      (running (.measure 0x03) 69 (sending 0) idleBus .low).cfg.params.readyBound = .unbounded) ∧
    ((∃ sub, (measureProgram 0x03).steps[70]? = some sub ∧ sub.act = .pollConversion) ∧
      (running (.measure 0x03) 70 (sending 0) idleBus .low).seq = .run (.measure 0x03) 70 .fresh ∧
      Released (running (.measure 0x03) 70 (sending 0) idleBus .low) ∧
      (running (.measure 0x03) 70 (sending 0) idleBus .low).cfg.params.convBound = .unbounded) :=
  ⟨⟨rfl, ⟨_, rfl, rfl⟩, rfl, rfl, rfl⟩, ⟨_, rfl, rfl⟩, rfl, ⟨rfl, rfl⟩, rfl⟩

theorem witness_TimeoutNeedsABound :
    (ready idleBus .low).cfg.params.readyBound = .unbounded ∧ (ready idleBus .low).cfg.params.convBound = .unbounded ∧
    (ready idleBus .low).status.outcome ≠ .timeout ∧ (∀ op k, (ready idleBus .low).seq ≠ .run op k (.raised .timeout)) ∧
    ∃ t, step (setAgenda [.write 0 2 0x9000] (ready idleBus .low)) = .next t :=
  ⟨rfl, rfl, by decide, (fun _ _ h => nomatch h), _, rfl⟩

/-- The second clause's bounds are met at their last admitted sample. -/
theorem witness_MeasureReturnsTheTwoBytes :
    Ready (ready drivenBus .low bounded) ∧ (commandDrives .low).length = 70 ∧ (commandDrives .low)[68]? = some .low ∧
    Admits (ready drivenBus .low bounded).cfg.params.readyBound 1 ∧
    Admits (ready drivenBus .low bounded).cfg.params.convBound 1 ∧ (presenting 0x12 49).length = 49 ∧
    Presents 0x12 (presenting 0x12 49) ∧ (presenting 0x34 47).length = 47 ∧ Presents 0x34 (presenting 0x34 47) :=
  ⟨ready_bounded, rfl, rfl, .inr ⟨2, rfl, by decide⟩, .inr ⟨2, rfl, by decide⟩, rfl, by unfold Presents; decide, rfl,
    by unfold Presents; decide⟩

theorem witness_ExpiredConversionPollEndsWithTimeout :
    Ready (ready drivenBus .low bounded) ∧ (commandDrives .low).length = 70 ∧ (commandDrives .low)[68]? = some .low ∧
    Admits (ready drivenBus .low bounded).cfg.params.readyBound 0 ∧
    (ready drivenBus .low bounded).cfg.params.convBound = .samples 2 :=
  ⟨ready_bounded, rfl, rfl, .inr ⟨2, rfl, by decide⟩, rfl⟩

/-- Both ends of the conclusion: the completion of a MEASURE, and a reset. -/
theorem witness_OnlyAnOkMeasureWritesResult :
    after (step (setAgenda [.engine] (running (.measure 0x03) 167 (receiving 0x34) idleBus .low))) (fun t => t.result)
      = some (.val 0x7734) ∧
    (running (.measure 0x03) 167 (receiving 0x34) idleBus .low).result = .val 0x5566 ∧
    after (step (setAgenda [.reset] (ready idleBus .low))) (fun t => t.result) = some .unspecified := by decide +kernel

/-- For RejectedUnconfigured, which those statements, SampleDataReadsTheLine and StartLeavesTheIdleBus use: neither line
configured, and each one alone. -/
theorem witness_RejectedUnconfigured :
    (Quiet (quiet {}) ∧ (quiet {}).status.clkCfg = false) ∧
    (Quiet { quiet {} with status := { resetStatus with clkCfg := true } } ∧
      ({ quiet {} with status := { resetStatus with clkCfg := true } } : State).status.dataCfg = false) ∧
    (Quiet { quiet {} with status := { resetStatus with dataCfg := true } } ∧
      ({ quiet {} with status := { resetStatus with dataCfg := true } } : State).status.clkCfg = false) :=
  ⟨⟨⟨rfl, rfl⟩, rfl⟩, ⟨⟨rfl, rfl⟩, rfl⟩, ⟨rfl, rfl⟩, rfl⟩

/-- The least count that is refused (V36); and 1 and 4 iterations that last T_UNIT_NS on the board of V30. -/
theorem witness_CalibratedCountIsTheLeastThatLasts :
    0xFFFF < delayCount 65536 1000000000 1 ∧ 1 ≤ 4 ∧
    ({} : Params).tUnitNs * ({} : Params).fCpuHz ≤ 4 * (1000000000 * ({} : Params).cyclesPerIter) := by decide

/-- For InstructionsLeavePortAndEnvironment and InstructionsWriteOnlyTheirRegisters: steps that answer. -/
theorem witness_Frames :
    (∃ t, exec .start (ready idleBus .low) = .next t) ∧
    (∃ t, exec .dataPullLow (running .dataPullLow 1 noScratch { idleBus with dataPue := false } .low) = .next t) ∧
    (∃ t, exec .sampleData (running .sampleData 0 noScratch idleBus .low) = .next t) := ⟨⟨_, rfl⟩, ⟨_, rfl⟩, _, rfl⟩

theorem witness_ClkStaysAnOutput :
    (ready idleBus .low).lines.clkDir = .out ∧ (∃ t, step (setAgenda [.engine] (ready idleBus .low)) = .next t) ∧
    (∃ t, step (setAgenda [.reset] (ready idleBus .low)) = .next t ∧ t.lines.clkDir = .inp) :=
  ⟨rfl, ⟨_, rfl⟩, _, rfl, rfl⟩

/-- Both flags' second sub-steps and completions, the reset that clears them, and the invariant before a completion. -/
theorem witness_ConfigurationFlagsAreSetAtCompletion :
    (∃ t, step (setAgenda [.engine] { quiet {} with seq := .run .cfgClkIdleLow 1 .fresh }) = .next t) ∧
    (∃ t, step (setAgenda [.engine] { quiet {} with seq := .run .cfgDataReleased 1 .fresh }) = .next t) ∧
    after (step (setAgenda [.engine] (completing .cfgClkIdleLow))) (fun t => clkCfgRead t.status) = some true ∧
    after (step (setAgenda [.engine] (completing .cfgDataReleased))) (fun t => dataCfgRead t.status) = some true ∧
    clkCfgRead (completing .cfgClkIdleLow).status = false ∧ dataCfgRead (completing .cfgDataReleased).status = false ∧
    (ready idleBus .low).status.clkCfg = true ∧
    after (step (setAgenda [.reset] (ready idleBus .low))) (fun t => (t.status.clkCfg, t.status.dataCfg))
      = some (false, false) :=
  ⟨⟨_, rfl⟩, ⟨_, rfl⟩, by decide⟩

theorem witness_ParametersAndDelayCountStay : ∃ t, step (setAgenda [.reset] (ready idleBus .low)) = .next t := ⟨_, rfl⟩

/-- Offsets at the edges of the map's rows. -/
theorem witness_PortReadsHaveNoSideEffect :
    6 ≤ (6 : BitVec 4).toNat ∧ 6 ≤ (15 : BitVec 4).toNat ∧ ¬ 6 ≤ (5 : BitVec 4).toNat ∧
    (ready idleBus .low).rdata = .val 0x77 ∧ (ready idleBus .low).result = .val 0x5566 := by decide

theorem witness_OtherPortAccessesDoNothing : (1 : BitVec 4) ≠ 0 ∧ (15 : BitVec 4) ≠ 0 ∧ (1 : Nat) ≠ 2 ∧ (4 : Nat) ≠ 2 := by
  decide

theorem witness_StatusLayoutIsAsTabled :
    (quiet {}).status.ackBit = .unspecified ∧ (quiet {}).status.smpBit = .unspecified ∧
    (ready idleBus .low).status.ackBit = .val true ∧ (ready idleBus .low).status.smpBit = .val false := by decide

/-- A port that serves a get-temperature request, at a phase. -/
def serving (ph : PortPhase) (s : State) : State :=
  s.withPort { req := some { code := 0, w0 := 0, w1 := 0 }, respBuf := [], respLen := 0, phase := ph }

/-- One state for each clause. -/
theorem witness_MeasureRequestSteps :
    (serving (.waitIdle 0x03) (ready idleBus .low)).port.phase = .waitIdle 0x03 ∧
    ((serving (.write 0x03) (ready idleBus .low)).port.phase = .write 0x03 ∧
      ∃ t, portWrite 0 2 (0xC000 ||| (0x03 : Byte).zeroExtend 16) (serving (.write 0x03) (ready idleBus .low)) = .next t) ∧
    ((serving .check (reject (quiet {}))).port.phase = .check ∧ (serving .check (reject (quiet {}))).status.illegal = true) ∧
    (serving .check (ready idleBus .low)).status.illegal = false ∧
    (serving .waitDone (ready idleBus .low)).port.phase = .waitDone :=
  ⟨rfl, ⟨rfl, _, rfl⟩, ⟨rfl, rfl⟩, rfl, rfl⟩

/-- A port about to collect, after a MEASURE that completed with an outcome. -/
def collecting (o : OpResult) : State :=
  serving .collect { ready idleBus .low with status := { resetStatus with outcome := o }, result := .val 0x1234 }

/-- A completed MEASURE with its outcome and its result in one state, and the two without. -/
theorem witness_CollectedResponseIsTheResult :
    ((collecting .ok).port.phase = .collect ∧ (collecting .ok).status.outcome = .ok ∧
      (collecting .ok).result = .val ((0x12 : Byte) ++ (0x34 : Byte))) ∧
    ((collecting .nack).port.phase = .collect ∧ (collecting .nack).status.outcome = .nack) ∧
    ((collecting .timeout).port.phase = .collect ∧ (collecting .timeout).status.outcome = .timeout) := by decide

/-- A state with one request waiting. -/
def asked (code : Nat) : State :=
  let s := ready idleBus .low
  s.withEnv { s.env with inbox := [{ code := code, w0 := 0xBEEF, w1 := 0 }] }

theorem witness_UnrecognizedRequestAnswersNothing :
    (asked 7).port.phase = .idle ∧ (asked 7).env.inbox = [{ code := 7, w0 := 0xBEEF, w1 := 0 }] ∧
    7 ∉ (asked 7).cfg.params.requestCodes := by decide

theorem witness_RecognizedRequestsAreBegunOrRefused :
    (asked 0).port.phase = .idle ∧ (asked 0).cfg.params.reqGetTemp = 0 ∧ (asked 1).cfg.params.reqGetHum = 1 ∧
    (asked 2).cfg.params.reqEcho = 2 ∧ (asked 4).cfg.params.reqGetStatus = 4 := by decide

theorem witness_ParameterWordsAreIgnored :
    ((serving .waitDone (ready idleBus .low)).port.phase ≠ .idle ∧
      (∃ t, servePort (serving .waitDone (ready idleBus .low)) = .next t)) ∧
    ((asked 0).port.phase = .idle ∧ ∃ t, servePort (asked 0) = .next t) :=
  ⟨⟨by simp [serving], _, rfl⟩, rfl, _, rfl⟩

/-- The agenda of a whole get-temperature request on a bounded board. -/
def asking : State :=
  setAgenda (requestTurns { code := 0, w0 := 0, w1 := 0 } ++
    drivenTurns (measureDrives (List.replicate 69 .low) 1 1 (presenting 0x12 49) (presenting 0x34 47) .low) ++
    [Turn.serve, Turn.serve]) (ready drivenBus .low bounded)

theorem asking_ready : Ready asking := ⟨⟨rfl, rfl⟩, rfl, rfl⟩

theorem witness_GetTemperatureAnswersTheTwoBytes :
    Ready (ready drivenBus .low bounded) ∧ (ready drivenBus .low bounded).port.phase = .idle ∧
    (ready drivenBus .low bounded).env.inbox = [] ∧ (ready drivenBus .low bounded).cfg.params.reqGetTemp = 0 ∧
    (List.replicate 69 Drive.low).length = 69 ∧ (List.replicate 69 Drive.low)[67]? = some .low ∧
    Admits (ready drivenBus .low bounded).cfg.params.readyBound 1 ∧
    Admits (ready drivenBus .low bounded).cfg.params.convBound 1 ∧ Presents 0x12 (presenting 0x12 49) ∧
    Presents 0x34 (presenting 0x34 47) ∧
    Ready asking ∧ asking.env.agenda = requestTurns { code := 0, w0 := 0, w1 := 0 } ++
      drivenTurns (measureDrives (List.replicate 69 .low) 1 1 (presenting 0x12 49) (presenting 0x34 47) .low) ++
      [Turn.serve, Turn.serve] :=
  ⟨ready_bounded, rfl, rfl, rfl, rfl, rfl, .inr ⟨2, rfl, by decide⟩, .inr ⟨2, rfl, by decide⟩,
    by unfold Presents; decide, by unfold Presents; decide, asking_ready, rfl⟩

theorem witness_RequestPortLeavesTheEngine :
    (∃ t, servePort (serving .collect (ready idleBus .low)) = .next t) ∧
    (∀ c, (serving .collect (ready idleBus .low)).port.phase ≠ .write c) := ⟨⟨_, rfl⟩, fun _ h => by cases h⟩

theorem witness_WatchdogResetsTheEngine :
    (setAgenda [.reset] (running .start 3 noScratch drivenBus .low)).env.agenda = [.reset] := rfl

/-- For EveryStepKeepsTheInvariant, NoStepFaultsUnderTheInvariant and RunningOperationTakesItsStep: the invariant in a
running state, at a sub-step between a primitive's two. -/
theorem witness_Invariant :
    EngineInv (running .dataPullLow 1 noScratch { idleBus with dataPue := false } .low) ∧
    (∃ t, step (running .dataPullLow 1 noScratch { idleBus with dataPue := false } .low) = .next t) ∧
    (running .dataPullLow 1 noScratch { idleBus with dataPue := false } .low).seq = .run .dataPullLow 1 .fresh := by
  refine ⟨⟨by decide, by decide, by decide, by decide, rfl, ?_, ?_, ?_⟩, ⟨_, rfl⟩, rfl⟩
  · exact ⟨_, rfl, by decide, by decide, rfl⟩
  · unfold configReady; decide
  · exact ⟨by decide, by decide, .inl rfl⟩

/-- For the last clause of ConfigurationFlagsAreSetAtCompletion: the invariant at both completions of a configuration
operation, CLKCFG and DATACFG reading 0. -/
theorem witness_FlagReadAtCompletion :
    (EngineInv (completing .cfgClkIdleLow) ∧ ∃ t, step (setAgenda [.engine] (completing .cfgClkIdleLow)) = .next t) ∧
    (EngineInv (completing .cfgDataReleased) ∧
      ∃ t, step (setAgenda [.engine] (completing .cfgDataReleased)) = .next t) := by
  refine ⟨⟨⟨by decide, by decide, by decide, by decide, rfl, ?_, ?_, ?_⟩, _, rfl⟩,
    ⟨by decide, by decide, by decide, by decide, rfl, ?_, ?_, ?_⟩, _, rfl⟩
  · exact ⟨_, rfl, by decide, by decide, by intro h; cases h⟩
  · unfold configReady; decide
  · exact ⟨by decide, by decide, .inl rfl⟩
  · exact ⟨_, rfl, by decide, by decide, by intro _; decide⟩
  · unfold configReady; decide
  · exact ⟨by decide, by decide, .inl rfl⟩

end Sys2Proof.Tests
end

namespace Sys2Proof.Machine

/-! What one step of the machine does: one agent's own changes around at most one answer of the engine. -/

/-- `t` is `s` but for the host request port, the environment and the free-value index. -/
def SameEngine (s t : State) : Prop :=
  ∃ p e n, t = { s with port := p, env := e, fresh := n }

theorem SameEngine.refl (s : State) : SameEngine s s := ⟨_, _, _, rfl⟩

theorem SameEngine.trans {s t u : State} (hst : SameEngine s t) (htu : SameEngine t u) : SameEngine s u := by
  obtain ⟨_, _, _, rfl⟩ := hst
  obtain ⟨_, _, _, rfl⟩ := htu
  exact ⟨_, _, _, rfl⟩

theorem sameEngine_withPort (p : RequestPort) (s : State) : SameEngine s (s.withPort p) := ⟨_, _, _, rfl⟩

theorem sameEngine_withEnv (e : Env) (s : State) : SameEngine s (s.withEnv e) := ⟨_, _, _, rfl⟩

theorem sameEngine_withFresh (n : Nat) (s : State) : SameEngine s (s.withFresh n) := ⟨_, _, _, rfl⟩

/-- What the engine does when a step reaches it: nothing; the rejection of a code; or a step of an instruction, which was
offered while BUSY = 0 or is the running operation's. -/
inductive EngineAnswers (s : State) : State → Prop
  | stays : EngineAnswers s s
  | rejects : EngineAnswers s (reject s)
  | executes {i : Instr} {t : State} (hi : s.status.busy = false ∨ ∃ k stage, s.seq = .run i k stage)
      (h : exec i s = .next t) : EngineAnswers s t

/-- One answer of the engine, with changes to the host request port and the environment before and after it. -/
def EngineMove (s t : State) : Prop :=
  ∃ s0 s1, SameEngine s s0 ∧ EngineAnswers s0 s1 ∧ SameEngine s1 t

theorem EngineAnswers.move {s t : State} (h : EngineAnswers s t) : EngineMove s t := ⟨s, t, .refl s, h, .refl t⟩

theorem SameEngine.move {s t : State} (h : SameEngine s t) : EngineMove s t := ⟨s, s, .refl s, .stays, h⟩

theorem SameEngine.trans_move {s s0 t : State} (h : SameEngine s s0) (hm : EngineMove s0 t) : EngineMove s t := by
  obtain ⟨a, b, ha, hab, hb⟩ := hm
  exact ⟨a, b, h.trans ha, hab, hb⟩

/-! The register port and the engine's turn. -/

/-- A register read changes the free-value index at most (R62). -/
theorem readRegister_state (offset : BitVec 4) (s : State) : ∃ n, (readRegister offset s).2 = s.withFresh n := by
  unfold readRegister
  split
  · obtain ⟨n, hn⟩ := readHeldBit_state s.status.ackBit s
    obtain ⟨m, hm⟩ := readHeldBit_state s.status.smpBit (s.withFresh n)
    exact ⟨m, by simp only [readStatus, hn, hm]; rfl⟩
  · exact readHeld_state s.rdata s
  · exact readHeld_state s.result s
  · obtain ⟨n, hn⟩ := busClk_state s
    obtain ⟨m, hm⟩ := busData_state (s.withFresh n)
    exact ⟨m, by simp only [readLines, hn, hm]; rfl⟩
  · exact ⟨s.fresh, rfl⟩
  · exact ⟨s.fresh, rfl⟩

theorem portRead_sameEngine {offset : BitVec 4} {width : Nat} {s t : State}
    (h : portRead offset width s = .next t) : SameEngine s t := by
  unfold portRead at h
  split at h
  · obtain ⟨n, hn⟩ := readRegister_state offset s
    rcases hread : readRegister offset s with ⟨v, s1⟩
    rw [hread] at h hn
    cases hn
    cases h
    exact (sameEngine_withFresh n s).trans (sameEngine_withEnv _ _)
  · cases h

theorem issueCode_answers {c : Code} {s t : State} (h : issueCode c s = .next t) : EngineAnswers s t := by
  unfold issueCode at h
  split at h
  · cases h; exact .rejects
  · rename_i hbusy
    split at h
    · exact .executes (.inl (by simpa using hbusy)) h
    · cases h; exact .rejects

theorem portWrite_answers {offset : BitVec 4} {width : Nat} {v : Word} {s t : State}
    (h : portWrite offset width v s = .next t) : EngineAnswers s t := by
  unfold portWrite at h
  split at h
  · split at h
    · exact issueCode_answers h
    · cases h; exact .stays
  · cases h

theorem sendByte_answers {b : Byte} {s t : State} (h : sendByte b s = .next t) : EngineAnswers s t := by
  unfold sendByte at h
  split at h
  · cases h; exact .rejects
  · rename_i hbusy
    have hidle : s.status.busy = false := by simpa using hbusy
    split at h <;> exact .executes (.inl hidle) h

theorem engineTurn_answers {s t : State} (h : engineTurn s = .next t) : EngineAnswers s t := by
  unfold engineTurn at h
  split at h
  · cases h; exact .stays
  · rename_i hseq; exact .executes (.inr ⟨_, _, hseq⟩) h

/-! The host request port. -/

theorem readResponse_state (a : Nat) (s : State) : ∃ n, (readResponse a s).2 = s.withFresh n := by
  unfold readResponse
  split
  · exact ⟨s.fresh, rfl⟩
  · exact ⟨s.fresh + 8, rfl⟩

theorem readResponses_state (n a : Nat) (s : State) : ∃ m, (readResponses n a s).2 = s.withFresh m := by
  induction n generalizing a s with
  | zero => exact ⟨s.fresh, rfl⟩
  | succ n ih =>
    obtain ⟨k, hk⟩ := readResponse_state a s
    obtain ⟨m, hm⟩ := ih (a + 1) (s.withFresh k)
    exact ⟨m, by simp only [readResponses, hk, hm]; rfl⟩

theorem setPhase_sameEngine (ph : PortPhase) (s : State) : SameEngine s (setPhase ph s) := sameEngine_withPort _ s

theorem respond_sameEngine (len : Fin 5) (s : State) : SameEngine s (respond len s) := by
  obtain ⟨m, hm⟩ :=
    readResponses_state len.val 0 (s.withPort { s.port with req := none, respLen := len, phase := .idle })
  simp only [respond, hm]
  exact ((sameEngine_withPort _ s).trans (sameEngine_withFresh m _)).trans (sameEngine_withEnv _ _)

theorem collectResult_sameEngine (s : State) : SameEngine s (collectResult s) := by
  unfold collectResult
  split
  · obtain ⟨m, hm⟩ := readHeld_state s.result s
    simp only [hm]
    exact ((sameEngine_withFresh m s).trans (sameEngine_withPort _ _)).trans (respond_sameEngine 2 _)
  · exact respond_sameEngine 0 s

theorem beginRequest_sameEngine {r : Request} {rest : List Request} {s t : State}
    (h : beginRequest r rest s = .next t) : SameEngine s t := by
  have taken : SameEngine s ((s.withEnv { s.env with inbox := rest }).withPort { s.port with req := some r }) :=
    (sameEngine_withEnv _ s).trans (sameEngine_withPort _ _)
  unfold beginRequest at h
  simp only at h
  split at h
  · cases h; exact taken.trans (setPhase_sameEngine _ _)
  · split at h
    · cases h; exact taken.trans (setPhase_sameEngine _ _)
    · split at h
      · cases h
      · cases h; exact taken.trans (respond_sameEngine 0 _)

theorem presentRequest_sameEngine {r : Request} {s t : State} (h : presentRequest r s = .next t) :
    SameEngine s t := by
  unfold presentRequest at h
  split at h
  · cases h; exact sameEngine_withEnv _ s
  · cases h

/-- A step of the host request port that does not write the MEASURE word leaves the engine (R191, R192). -/
theorem servePort_sameEngine {s t : State} (hphase : ∀ c, s.port.phase ≠ .write c) (h : servePort s = .next t) :
    SameEngine s t := by
  have unlessBusy (b : Bool) (ph : PortPhase) : SameEngine s (if b = true then s else setPhase ph s) := by
    cases b with
    | true => exact .refl s
    | false => exact setPhase_sameEngine ph s
  unfold servePort at h
  split at h
  case h_1 =>
    split at h
    · cases h; exact .refl s
    · exact beginRequest_sameEngine h
  case h_2 => cases h; exact unlessBusy _ _
  case h_3 c hwrite => exact absurd hwrite (hphase c)
  case h_4 =>
    cases h
    split
    · exact respond_sameEngine 0 s
    · exact setPhase_sameEngine _ s
  case h_5 => cases h; exact unlessBusy _ _
  case h_6 => cases h; exact collectResult_sameEngine s

/-- The step of the host request port that writes the MEASURE word (R192). -/
theorem servePort_write {c : Byte} {s t : State} (hphase : s.port.phase = .write c) (h : servePort s = .next t) :
    ∃ s1, portWrite 0 2 (measureWord c) s = .next s1 ∧ t = setPhase .check s1 := by
  simp only [servePort, hphase] at h
  split at h
  · rename_i s1 hwrite
    cases h; exact ⟨s1, hwrite, rfl⟩
  · cases h
  · cases h

theorem servePort_move {s t : State} (h : servePort s = .next t) : EngineMove s t := by
  by_cases hphase : ∃ c, s.port.phase = .write c
  · obtain ⟨c, hc⟩ := hphase
    obtain ⟨s1, hwrite, rfl⟩ := servePort_write hc h
    exact ⟨s, s1, .refl s, portWrite_answers hwrite, setPhase_sameEngine _ s1⟩
  · exact (servePort_sameEngine (not_exists.mp hphase) h).move

/-! Turns and steps. -/

/-- Every turn but a reset is a move of the engine. -/
theorem takeTurn_move {turn : Turn} {s t : State} (hreset : turn ≠ .reset) (h : takeTurn turn s = .next t) :
    EngineMove s t := by
  cases turn with
  | sensor d => cases h; exact (sameEngine_withEnv _ s).move
  | engine => exact (engineTurn_answers h).move
  | write offset width v => exact (portWrite_answers h).move
  | read offset width => exact (portRead_sameEngine h).move
  | command b => exact (sendByte_answers h).move
  | request r => exact (presentRequest_sameEngine h).move
  | serve => exact servePort_move h
  | reset => exact absurd rfl hreset

theorem unscheduledTurn_move {s t : State} (h : unscheduledTurn s = .next t) : EngineMove s t := by
  have driven : SameEngine s ((setDrive (Config.sensorDrive s.fresh) s).withFresh (s.fresh + 1)) :=
    (sameEngine_withEnv _ s).trans (sameEngine_withFresh _ _)
  unfold unscheduledTurn at h
  simp only at h
  split at h
  · exact driven.trans_move (servePort_move h)
  · rename_i hseq
    exact driven.trans_move (EngineAnswers.executes (.inr ⟨_, _, hseq⟩) h).move

/-- What one step of the machine can do: the watchdog's reset, or a move of the engine. -/
theorem step_cases {s t : State} (h : step s = .next t) :
    (∃ rest, s.env.agenda = .reset :: rest ∧ t = (setAgenda rest s).resetEngine) ∨ EngineMove s t := by
  unfold step nextTurn at h
  split at h
  · exact .inr (unscheduledTurn_move h)
  · rename_i turn rest hagenda
    by_cases hreset : turn = .reset
    · subst hreset
      cases h; exact .inl ⟨rest, hagenda, rfl⟩
    · exact .inr ((sameEngine_withEnv _ s).trans_move (takeTurn_move hreset h))

/-! Frames of an instruction and of a step. -/

/-- The frame of `operate`, for every instruction. -/
theorem exec_frame {i : Instr} {s t : State} (h : exec i s = .next t) :
    t.cfg = s.cfg ∧ t.dlyCount = s.dlyCount ∧ t.port = s.port ∧ t.env = s.env := by
  obtain ⟨op, p, -, -, -, -, -, -, hexec⟩ := exec_eq_operate i
  exact operate_frame ((hexec s).symm.trans h)

theorem SameEngine.cfg_dlyCount {s t : State} (h : SameEngine s t) : t.cfg = s.cfg ∧ t.dlyCount = s.dlyCount := by
  obtain ⟨_, _, _, rfl⟩ := h
  exact ⟨rfl, rfl⟩

theorem EngineAnswers.cfg_dlyCount {s t : State} (h : EngineAnswers s t) :
    t.cfg = s.cfg ∧ t.dlyCount = s.dlyCount := by
  cases h with
  | stays => exact ⟨rfl, rfl⟩
  | rejects => exact ⟨rfl, rfl⟩
  | executes _ hexec =>
    obtain ⟨hcfg, hdly, -, -⟩ := exec_frame hexec
    exact ⟨hcfg, hdly⟩

theorem EngineMove.cfg_dlyCount {s t : State} (h : EngineMove s t) : t.cfg = s.cfg ∧ t.dlyCount = s.dlyCount := by
  obtain ⟨s0, s1, hbefore, hanswer, hafter⟩ := h
  obtain ⟨hcfg0, hdly0⟩ := hbefore.cfg_dlyCount
  obtain ⟨hcfg1, hdly1⟩ := hanswer.cfg_dlyCount
  obtain ⟨hcfg2, hdly2⟩ := hafter.cfg_dlyCount
  exact ⟨hcfg2.trans (hcfg1.trans hcfg0), hdly2.trans (hdly1.trans hdly0)⟩

/-- Settles O40: every instruction's step is a step of an operation, whose frame is `operate_frame`; with the whole port
every byte of RESP_BUF stays. -/
theorem instructionsLeavePortAndEnvironment : Obligations.InstructionsLeavePortAndEnvironment := by
  intro i s t h
  obtain ⟨hcfg, hdly, hport, henv⟩ := exec_frame h
  exact ⟨hcfg, hdly, hport, henv, fun a => by rw [hport]⟩

/-- Settles O43: a reset keeps the parameters, and a move of the engine keeps them and DLY_COUNT. -/
theorem parametersAndDelayCountStay : Obligations.ParametersAndDelayCountStay := by
  intro s t h
  obtain ⟨rest, hagenda, rfl⟩ | hmove := step_cases h
  · exact ⟨rfl, .inr ⟨rest, hagenda⟩⟩
  · obtain ⟨hcfg, hdly⟩ := hmove.cfg_dlyCount
    exact ⟨hcfg, .inl hdly⟩

end Sys2Proof.Machine

namespace Sys2Proof.Machine

/-! What every micro-program satisfies, as one check over its sub-steps (R30, R102, R103, R135). -/

/-- The scratch registers an assignment reads (R30). -/
def updReads : Upd → List ScratchReg
  | .shiftCmd => [.cmd]
  | .incBitCnt => [.bitCnt]
  | .shiftInSample => [.acc]
  | .rdataFromAcc => [.acc]
  | .resultFromBytes => [.acc]
  | _ => []

/-- The scratch registers a sub-step reads (R30). -/
def actReads : Act → List ScratchReg
  | .bitFirst => [.cmd]
  | .bitSecond => [.cmd]
  | .pollReady => [.pollCnt]
  | .pollConversion => [.pollCnt]
  | _ => []

/-- The assignments that report a completed operation: RESULT (R171) and R25's conditions. -/
def reportsCompletion : Upd → Bool
  | .resultFromBytes => true
  | .clkCfgDone => true
  | .dataCfgDone => true
  | _ => false

/-- The second sub-step on DATA that a first one leaves to be taken (R102, R103, R141). -/
def opensSecond : Act → Option Act
  | .dataPueOff => some .dataDirOut
  | .dataDirIn => some .dataPueOn
  | .bitFirst => some .bitSecond
  | _ => none

/-- The second sub-step on DATA that the next sub-step is, if it is one: `dataConfigure` is a `dataPueOn` on the line
(R101). -/
def closesSecond : Option Act → Option Act
  | some .dataDirOut => some .dataDirOut
  | some .dataPueOn => some .dataPueOn
  | some .dataConfigure => some .dataPueOn
  | some .bitSecond => some .bitSecond
  | _ => none

/-- Every assignment reads registers of `w` or ones that an assignment before it has written. -/
def readsCovered : List ScratchReg → List Upd → Bool
  | _, [] => true
  | w, u :: us => (updReads u).all (fun r => decide (r ∈ w)) && readsCovered (w ++ firstWrites u) us

/-- A sub-step reads what has been written, `w` before it; no assignment rides on the second half of a command bit, and
none on a sub-step reports a completion. -/
def subStepSound (w : List ScratchReg) (st : SubStep) : Bool :=
  readsCovered w st.pre && (actReads st.act).all (fun r => decide (r ∈ w ++ st.pre.flatMap firstWrites)) &&
    (decide (st.act ≠ .bitSecond) || st.pre.isEmpty) && st.pre.all (fun u => !reportsCompletion u)

/-- Sub-steps that are sound one after another, with the registers `w` written and the second sub-step `d` on DATA left
to be taken before them, and none after them. -/
def soundFrom : List ScratchReg → Option Act → List SubStep → Bool
  | _, d, [] => decide (d = none)
  | w, d, st :: sts =>
    decide (closesSecond (some st.act) = d) && subStepSound w st &&
      soundFrom (w ++ st.pre.flatMap firstWrites) (opensSecond st.act) sts

/-- The next sub-step closes what is left open on DATA. -/
theorem soundFrom_head {w : List ScratchReg} {d : Option Act} {l : List SubStep} (h : soundFrom w d l = true) :
    closesSecond (l.head?.map SubStep.act) = d := by
  cases l with
  | nil => simpa [soundFrom, closesSecond, eq_comm] using h
  | cons st sts =>
    simp only [soundFrom, Bool.and_eq_true, decide_eq_true_eq] at h
    exact h.1.1

/-- At each index: the sub-step there is sound, and the next one closes what it opens. -/
theorem soundFrom_getElem {w : List ScratchReg} {d : Option Act} {l : List SubStep} (h : soundFrom w d l = true)
    {k : Nat} {st : SubStep} (hk : l[k]? = some st) :
    subStepSound (w ++ writtenBy (l.take k)) st = true ∧
      closesSecond (l[k + 1]?.map SubStep.act) = opensSecond st.act := by
  induction l generalizing w d k with
  | nil => cases hk
  | cons a l ih =>
    simp only [soundFrom, Bool.and_eq_true, decide_eq_true_eq] at h
    obtain ⟨⟨-, hsound⟩, hrest⟩ := h
    cases k with
    | zero =>
      cases hk
      exact ⟨by simpa [writtenBy] using hsound, by simpa [List.head?_eq_getElem?] using soundFrom_head hrest⟩
    | succ k => simpa [writtenBy] using ih hrest hk

/-! How soundness is put together from the sequences a micro-program is built of. -/

theorem mem_writtenBy_append {w : List ScratchReg} {l l' : List SubStep} {r : ScratchReg} :
    r ∈ w ++ writtenBy (l ++ l') ↔ r ∈ (w ++ writtenBy l) ++ writtenBy l' := by
  simp [writtenBy]

theorem append_subset_append {w w' v : List ScratchReg} (hw : w ⊆ w') : w ++ v ⊆ w' ++ v :=
  List.append_subset.mpr ⟨List.subset_append_of_subset_left v hw, List.subset_append_right w' v⟩

theorem readsCovered_mono {w w' : List ScratchReg} (hw : w ⊆ w') {us : List Upd} (h : readsCovered w us = true) :
    readsCovered w' us = true := by
  induction us generalizing w w' with
  | nil => rfl
  | cons u us ih =>
    simp only [readsCovered, Bool.and_eq_true, List.all_eq_true, decide_eq_true_eq] at h ⊢
    exact ⟨fun r hr => hw (h.1 r hr), ih (append_subset_append hw) h.2⟩

theorem subStepSound_mono {w w' : List ScratchReg} (hw : w ⊆ w') {st : SubStep} (h : subStepSound w st = true) :
    subStepSound w' st = true := by
  simp only [subStepSound, Bool.and_eq_true, List.all_eq_true, decide_eq_true_eq] at h ⊢
  obtain ⟨⟨⟨hpre, hact⟩, hbit⟩, hreports⟩ := h
  exact ⟨⟨⟨readsCovered_mono hw hpre, fun r hr => append_subset_append hw (hact r hr)⟩, hbit⟩, hreports⟩

theorem soundFrom_mono {w w' : List ScratchReg} (hw : w ⊆ w') {d : Option Act} {l : List SubStep}
    (h : soundFrom w d l = true) : soundFrom w' d l = true := by
  induction l generalizing w w' d with
  | nil => exact h
  | cons st sts ih =>
    simp only [soundFrom, Bool.and_eq_true] at h ⊢
    obtain ⟨⟨hclose, hsound⟩, hrest⟩ := h
    exact ⟨⟨hclose, subStepSound_mono hw hsound⟩, ih (append_subset_append hw) hrest⟩

/-- One sequence after another, where the first writes what the second needs. -/
theorem soundFrom_append {w w' : List ScratchReg} {d : Option Act} {l l' : List SubStep}
    (h : soundFrom w d l = true) (hw : w' ⊆ w ++ writtenBy l) (h' : soundFrom w' none l' = true) :
    soundFrom w d (l ++ l') = true := by
  induction l generalizing w d with
  | nil =>
    have hd : d = none := by simpa [soundFrom] using h
    subst hd
    exact soundFrom_mono (by simpa [writtenBy] using hw) h'
  | cons st sts ih =>
    simp only [soundFrom, List.cons_append, Bool.and_eq_true] at h ⊢
    exact ⟨h.1, ih h.2 (by simpa [writtenBy] using hw)⟩

theorem soundFrom_replicate {w : List ScratchReg} {l : List SubStep} (h : soundFrom w none l = true) (n : Nat) :
    soundFrom w none (List.replicate n l).flatten = true := by
  induction n with
  | zero => rfl
  | succ n ih => exact soundFrom_append h (List.subset_append_left _ _) ih

/-! The micro-programs. -/

theorem commandBits_sound (c : Byte) : soundFrom [] none (commandBits c) = true :=
  soundFrom_append (w' := [.cmd, .bitCnt]) rfl (List.Subset.refl _) (soundFrom_replicate rfl 7)

theorem writtenBy_commandBits (c : Byte) : writtenBy (startSeq ++ commandBits c) = [.cmd, .bitCnt] := rfl

theorem sendCmdSeq_sound (c : Byte) : soundFrom [] none (sendCmdSeq c) = true := by
  have hbits : soundFrom [] none (startSeq ++ commandBits c) = true :=
    soundFrom_append rfl (List.nil_subset _) (commandBits_sound c)
  have hack : soundFrom [] none (startSeq ++ commandBits c ++ ackSeq) = true :=
    soundFrom_append hbits (by rw [writtenBy_commandBits]; exact List.Subset.refl _) rfl
  exact soundFrom_append (w' := []) hack (List.nil_subset _) rfl

theorem readByteSeq_sound (sup : Bool) : soundFrom [] none (readByteSeq sup) = true := by
  cases sup <;> rfl

/-- The first byte read writes ACC, which the second one's first sub-step stores (R171). -/
theorem measureSeq_sound (c : Byte) : soundFrom [] none (measureSeq c) = true := by
  have hpoll : soundFrom [] none (sendCmdSeq c ++ riding [.clearPollCnt] (plain [.pollConversion])) = true :=
    soundFrom_append (w' := []) (sendCmdSeq_sound c) (List.nil_subset _) rfl
  have hfirst := soundFrom_append hpoll (List.nil_subset _) (readByteSeq_sound false)
  refine soundFrom_append (w' := [.acc]) hfirst ?_ rfl
  exact fun r hr => mem_writtenBy_append.mpr (List.mem_append_right _ (by revert r; decide))

theorem programOf_soundFrom {op : Instr} {p : MicroProgram} (hp : programOf op = some p) :
    soundFrom [] none p.steps = true := by
  cases op <;> cases hp
  case sendCmd c => exact sendCmdSeq_sound c
  case readByte sup => exact readByteSeq_sound sup
  case measure c => exact measureSeq_sound c
  all_goals rfl

/-- What rides on the completion step reads what the sub-steps have written. -/
theorem programOf_final_readsCovered {op : Instr} {p : MicroProgram} (hp : programOf op = some p) :
    readsCovered (writtenBy p.steps) p.final = true := by
  cases op <;> cases hp
  case readByte sup => cases sup <;> rfl
  all_goals rfl

end Sys2Proof.Machine

namespace Sys2Proof.Machine

/-! The two configuration operations, as one family: the flag each assigns and the condition of R25 each meets. -/

/-- A line that R25 configures. -/
inductive ConfigLine
  | clk
  | data

/-- The operation that configures the line (R100, R101). -/
def ConfigLine.op : ConfigLine → Instr
  | .clk => .cfgClkIdleLow
  | .data => .cfgDataReleased

/-- The sub-step that assigns the line's flag. -/
def ConfigLine.act : ConfigLine → Act
  | .clk => .clkConfigure
  | .data => .dataConfigure

/-- The assignment that meets R25's condition. -/
def ConfigLine.upd : ConfigLine → Upd
  | .clk => .clkCfgDone
  | .data => .dataCfgDone

/-- The flag as assigned: CLKCFG or DATACFG. -/
def ConfigLine.assigned : ConfigLine → Status → Bool
  | .clk => Status.clkCfg
  | .data => Status.dataCfg

/-- R25's condition: the operation has completed since the last reset. -/
def ConfigLine.done : ConfigLine → Status → Bool
  | .clk => Status.clkCfgDone
  | .data => Status.dataCfgDone

/-- What the sub-step that assigns the flag leaves on the line. -/
def ConfigLine.configured : ConfigLine → Lines → Prop
  | .clk => fun l => l.clkDir = .out
  | .data => fun l => l.dataPue = true

theorem configReady_iff (s : State) :
    configReady s ↔ ∀ line : ConfigLine,
      (line.assigned s.status = true ↔ line.done s.status = true ∨ s.seq = .run line.op 2 .fresh) :=
  ⟨fun h line => by cases line; exacts [h.1, h.2], fun h => ⟨h .clk, h .data⟩⟩

/-! Where the micro-programs configure and report. -/

/-- No micro-program but the configuration operation's own has the sub-step that assigns the line's flag: what the
sub-steps are does not depend on the command byte. -/
theorem configAct_notMem {op : Instr} {p : MicroProgram} (hp : programOf op = some p) {line : ConfigLine}
    (hop : op ≠ line.op) : line.act ∉ p.steps.map SubStep.act := by
  cases op <;> cases hp
  case cfgClkIdleLow => cases line with
    | clk => exact absurd rfl hop
    | data => decide
  case cfgDataReleased => cases line with
    | clk => decide
    | data => exact absurd rfl hop
  case sendCmd c =>
    have hacts : (sendCmdProgram c).steps.map SubStep.act = (sendCmdProgram 0).steps.map SubStep.act := rfl
    rw [hacts]; cases line <;> decide
  case readByte sup => cases sup <;> cases line <;> decide
  case measure c =>
    have hacts : (measureProgram c).steps.map SubStep.act = (measureProgram 0).steps.map SubStep.act := rfl
    rw [hacts]; cases line <;> decide
  all_goals cases line <;> decide

/-- The flag is assigned in sub-step 2 of its own operation only (R100, R101). -/
theorem configAct_programOf {op : Instr} {p : MicroProgram} (hp : programOf op = some p) {line : ConfigLine}
    {k : Nat} {st : SubStep} (hst : p.steps[k]? = some st) (hact : st.act = line.act) : op = line.op ∧ k = 1 := by
  have hop : op = line.op := by
    by_contra hne
    exact configAct_notMem hp hne (hact ▸ List.mem_map_of_mem (List.mem_of_getElem? hst))
  refine ⟨hop, ?_⟩
  subst hop
  obtain _ | _ | k := k
  · cases line <;> cases hp <;> cases hst <;> cases hact
  · rfl
  · cases line <;> cases hp <;> cases hst

theorem configProgram_steps {line : ConfigLine} {p : MicroProgram} (hp : programOf line.op = some p) :
    p.steps.length = 2 ∧ p.steps[1]?.map SubStep.act = some line.act := by
  cases line <;> cases hp <;> exact ⟨rfl, rfl⟩

/-- R25's condition rides on the completion of the line's own operation only. -/
theorem configUpd_mem_final {op : Instr} {p : MicroProgram} (hp : programOf op = some p) (line : ConfigLine) :
    line.upd ∈ p.final ↔ op = line.op := by
  cases op <;> cases hp <;> cases line <;>
    simp [ConfigLine.upd, ConfigLine.op, cfgClkIdleLowProgram, cfgDataReleasedProgram, clkHighProgram, clkLowProgram,
      dataPullLowProgram, dataReleaseProgram, sampleDataProgram, delayUnitProgram, startProgram, sendCmdProgram,
      readByteProgram, measureProgram]

/-- RESULT rides on the completion of a MEASURE only (R171). -/
theorem resultFromBytes_mem_final {op : Instr} {p : MicroProgram} (hp : programOf op = some p)
    (hu : .resultFromBytes ∈ p.final) : ∃ c, op = .measure c := by
  cases op <;> cases hp
  case measure c => exact ⟨c, rfl⟩
  all_goals
    simp [cfgClkIdleLowProgram, cfgDataReleasedProgram, clkHighProgram, clkLowProgram, dataPullLowProgram,
      dataReleaseProgram, sampleDataProgram, delayUnitProgram, startProgram, sendCmdProgram, readByteProgram] at hu

end Sys2Proof.Machine

namespace Sys2Proof.Machine

/-! Assignments: what they need, what they give a value, and what they leave. -/

/-- A read of CMD answers where CMD holds a value (R30). -/
theorem getCmd_of_holds {s : State} (h : s.scratch.holds .cmd = true) : ∃ v, getCmd s = .ok v := by
  obtain ⟨v, hv⟩ := Option.isSome_iff_exists.mp h
  exact ⟨v, by simp [getCmd, hv]⟩

/-- A read of ACC answers where ACC holds a value (R30). -/
theorem getAcc_of_holds {s : State} (h : s.scratch.holds .acc = true) : ∃ v, getAcc s = .ok v := by
  obtain ⟨v, hv⟩ := Option.isSome_iff_exists.mp h
  exact ⟨v, by simp [getAcc, hv]⟩

/-- A read of BITCNT answers where BITCNT holds a value (R30). -/
theorem getBitCnt_of_holds {s : State} (h : s.scratch.holds .bitCnt = true) : ∃ v, getBitCnt s = .ok v := by
  obtain ⟨v, hv⟩ := Option.isSome_iff_exists.mp h
  exact ⟨v, by simp [getBitCnt, hv]⟩

/-- A read of POLLCNT answers where POLLCNT holds a value (R30). -/
theorem getPollCnt_of_holds {s : State} (h : s.scratch.holds .pollCnt = true) : ∃ v, getPollCnt s = .ok v := by
  obtain ⟨v, hv⟩ := Option.isSome_iff_exists.mp h
  exact ⟨v, by simp [getPollCnt, hv]⟩

/-- An assignment whose registers hold values does not fault. -/
theorem assign_answers {u : Upd} {s : State} (h : ∀ r ∈ updReads u, s.scratch.holds r = true) :
    ∃ t, assign u s = .ok t := by
  cases u
  case shiftCmd => obtain ⟨v, hv⟩ := getCmd_of_holds (h .cmd (by simp [updReads])); simp [assign, hv]
  case incBitCnt => obtain ⟨v, hv⟩ := getBitCnt_of_holds (h .bitCnt (by simp [updReads])); simp [assign, hv]
  case shiftInSample => obtain ⟨v, hv⟩ := getAcc_of_holds (h .acc (by simp [updReads])); simp [assign, hv]
  case rdataFromAcc => obtain ⟨v, hv⟩ := getAcc_of_holds (h .acc (by simp [updReads])); simp [assign, hv]
  case resultFromBytes => obtain ⟨v, hv⟩ := getAcc_of_holds (h .acc (by simp [updReads])); simp [assign, hv]
  all_goals exact ⟨_, rfl⟩

@[simp] theorem setCmd_holds (v : Byte) (s : State) (r : ScratchReg) :
    (setCmd v s).scratch.holds r = (decide (r = .cmd) || s.scratch.holds r) := by
  cases r <;> rfl

@[simp] theorem setAcc_holds (v : Byte) (s : State) (r : ScratchReg) :
    (setAcc v s).scratch.holds r = (decide (r = .acc) || s.scratch.holds r) := by
  cases r <;> rfl

@[simp] theorem setBitCnt_holds (v : BitVec 4) (s : State) (r : ScratchReg) :
    (setBitCnt v s).scratch.holds r = (decide (r = .bitCnt) || s.scratch.holds r) := by
  cases r <;> rfl

@[simp] theorem setPollCnt_holds (v : Nat) (s : State) (r : ScratchReg) :
    (setPollCnt v s).scratch.holds r = (decide (r = .pollCnt) || s.scratch.holds r) := by
  cases r <;> rfl

/-- An assignment gives a value to what it first writes, and takes none away. -/
theorem assign_holds {u : Upd} {s t : State} (h : assign u s = .ok t) {r : ScratchReg}
    (hr : r ∈ firstWrites u ∨ s.scratch.holds r = true) : t.scratch.holds r = true := by
  obtain ⟨n, hn⟩ := readHeldBit_state s.status.smpBit s
  obtain ⟨m, hm⟩ := readHeld_state s.rdata s
  cases u <;> simp only [assign, lastSample, hn, hm] at h
  case shiftCmd | incBitCnt | shiftInSample | rdataFromAcc | resultFromBytes =>
    have hs : s.scratch.holds r = true := by simpa [firstWrites] using hr
    split at h <;> cases h
    simp [hs]
  all_goals
    cases h
    simpa [firstWrites, setAckBit, setClkCfgDone, setDataCfgDone] using hr

/-- An assignment writes RESULT and R25's conditions only where it reports a completion. -/
theorem assign_reports {u : Upd} {s t : State} (h : assign u s = .ok t) :
    (u ≠ .resultFromBytes → t.result = s.result) ∧
      ∀ line : ConfigLine, line.done t.status = (decide (u = line.upd) || line.done s.status) := by
  obtain ⟨n, hn⟩ := readHeldBit_state s.status.smpBit s
  obtain ⟨m, hm⟩ := readHeld_state s.rdata s
  cases u <;> simp only [assign, lastSample, hn, hm] at h
  case shiftCmd | incBitCnt | shiftInSample | rdataFromAcc =>
    split at h <;> cases h
    exact ⟨fun _ => rfl, fun line => by cases line <;> rfl⟩
  case resultFromBytes =>
    split at h <;> cases h
    exact ⟨fun hu => absurd rfl hu, fun line => by cases line <;> rfl⟩
  all_goals
    cases h
    exact ⟨fun _ => rfl, fun line => by cases line <;> rfl⟩

/-! Lists of assignments. -/

/-- Assignments in a row that each read what has been written do not fault. -/
theorem assignAll_answers {w : List ScratchReg} {us : List Upd} {s : State} (hus : readsCovered w us = true)
    (hw : ∀ r ∈ w, s.scratch.holds r = true) : ∃ t, assignAll us s = .ok t := by
  induction us generalizing w s with
  | nil => exact ⟨s, rfl⟩
  | cons u us ih =>
    simp only [readsCovered, Bool.and_eq_true, List.all_eq_true, decide_eq_true_eq] at hus
    obtain ⟨s1, hs1⟩ := assign_answers (u := u) fun r hr => hw r (hus.1 r hr)
    obtain ⟨t, ht⟩ := ih hus.2 (s := s1) fun r hr => assign_holds hs1 ((List.mem_append.mp hr).symm.imp_right (hw r))
    exact ⟨t, by simp [assignAll, hs1, ht]⟩

theorem assignAll_holds {us : List Upd} {s t : State} (h : assignAll us s = .ok t) {r : ScratchReg}
    (hr : r ∈ us.flatMap firstWrites ∨ s.scratch.holds r = true) : t.scratch.holds r = true := by
  induction us generalizing s with
  | nil => cases h; simpa using hr
  | cons u us ih =>
    simp only [assignAll] at h
    split at h
    · rename_i s1 hs1
      rw [List.flatMap_cons, List.mem_append, or_right_comm] at hr
      exact ih h (hr.symm.imp_right (assign_holds hs1))
    · cases h

theorem assignAll_result {us : List Upd} {s t : State} (h : assignAll us s = .ok t) (hus : .resultFromBytes ∉ us) :
    t.result = s.result := by
  induction us generalizing s with
  | nil => cases h; rfl
  | cons u us ih =>
    simp only [assignAll] at h
    split at h
    · rename_i s1 hs1
      rw [List.mem_cons, not_or] at hus
      exact (ih h hus.2).trans ((assign_reports hs1).1 (Ne.symm hus.1))
    · cases h

theorem assignAll_done {us : List Upd} {s t : State} (h : assignAll us s = .ok t) (line : ConfigLine) :
    line.done t.status = (decide (line.upd ∈ us) || line.done s.status) := by
  induction us generalizing s with
  | nil => cases h; rfl
  | cons u us ih =>
    simp only [assignAll] at h
    split at h
    · rename_i s1 hs1
      rw [ih h, (assign_reports hs1).2 line]
      simp [eq_comm, Bool.or_assoc, Bool.or_left_comm]
    · cases h

/-! Sub-steps. -/

/-- A sub-step whose registers hold values does not fault. -/
theorem perform_answers {a : Act} {s : State} (h : ∀ r ∈ actReads a, s.scratch.holds r = true) :
    ∃ t fl, perform a s = .ok (t, fl) := by
  have hpoll (level : Bool) (bound : Bound) (hp : s.scratch.holds .pollCnt = true) :
      ∃ t fl, pollOnce level bound s = .ok (t, fl) := by
    obtain ⟨n, hn⟩ := sample_state s
    obtain ⟨v, hv⟩ := getPollCnt_of_holds (s := (sample s).2) (by rw [hn]; exact hp)
    unfold pollOnce
    simp only [pollMiss, hv]
    split
    · exact ⟨_, _, rfl⟩
    · split <;> exact ⟨_, _, rfl⟩
  cases a
  case bitFirst => obtain ⟨v, hv⟩ := getCmd_of_holds (h .cmd (by simp [actReads])); simp [perform, hv]
  case bitSecond => obtain ⟨v, hv⟩ := getCmd_of_holds (h .cmd (by simp [actReads])); simp [perform, hv]
  case pollReady => exact hpoll _ _ (h .pollCnt (by simp [actReads]))
  case pollConversion => exact hpoll _ _ (h .pollCnt (by simp [actReads]))
  all_goals exact ⟨_, _, rfl⟩

/-- What a sub-step can do to the state, by what it is: sample, clock, configure a line, or drive DATA. -/
inductive SubStepEffect (s : State) : Act → State → Prop
  | samples {a : Act} {b : Held Bool} {sc : Scratch} {n : Nat}
      (ha : a = .delay ∨ a = .sample ∨ a = .pollReady ∨ a = .pollConversion)
      (hsc : ∀ r, s.scratch.holds r = true → sc.holds r = true) :
      SubStepEffect s a { s with status := { s.status with smpBit := b }, scratch := sc, fresh := n }
  | clocks {a : Act} {b : Bool} {n : Nat} (ha : a = .ackClkLow ∨ a = .clkLevel b) :
      SubStepEffect s a { s with lines := { s.lines with clkLvl := b }, fresh := n }
  | clkConfigure : SubStepEffect s .clkConfigure (setClkCfg (setClkOut s))
  | dataConfigure : SubStepEffect s .dataConfigure (setDataCfg (setDataPue true s))
  | dataPueOff : SubStepEffect s .dataPueOff (setDataPue false s)
  | dataDirOut : SubStepEffect s .dataDirOut (setDataDir .out s)
  | dataDirIn : SubStepEffect s .dataDirIn (setDataDir .inp s)
  | dataPueOn : SubStepEffect s .dataPueOn (setDataPue true s)
  | bitFirst {c : Byte} (hc : s.scratch.cmd = some c) :
      SubStepEffect s .bitFirst (if c.getLsbD 7 then setDataDir .inp s else setDataPue false s)
  | bitSecond {c : Byte} (hc : s.scratch.cmd = some c) :
      SubStepEffect s .bitSecond (if c.getLsbD 7 then setDataPue true s else setDataDir .out s)

theorem getCmd_eq_ok {s : State} {c : Byte} (h : getCmd s = .ok c) : s.scratch.cmd = some c := by
  unfold getCmd at h
  split at h <;> cases h
  assumption

/-- A poll iteration writes SMPBIT, and counts in POLLCNT (R145, R146). -/
theorem pollOnce_holds {level : Bool} {bound : Bound} {s t : State} {fl : Flow}
    (h : pollOnce level bound s = .ok (t, fl)) {r : ScratchReg} (hr : s.scratch.holds r = true) :
    t.scratch.holds r = true := by
  obtain ⟨n, hn⟩ := sample_state s
  have hsample : (sample s).2.scratch.holds r = true := by rw [hn]; exact hr
  unfold pollOnce at h
  simp only [pollMiss] at h
  split at h
  · cases h; exact hsample
  · split at h
    · split at h <;> cases h <;> simp [hsample]
    · cases h

theorem perform_effect {a : Act} {s t : State} {fl : Flow} (h : perform a s = .ok (t, fl)) :
    SubStepEffect s a t := by
  cases a <;> simp only [perform] at h
  case clkLevel b => cases h; exact .clocks (n := s.fresh) (.inr rfl)
  case clkConfigure => cases h; exact .clkConfigure
  case dataConfigure => cases h; exact .dataConfigure
  case dataPueOff => cases h; exact .dataPueOff
  case dataDirOut => cases h; exact .dataDirOut
  case dataDirIn => cases h; exact .dataDirIn
  case dataPueOn => cases h; exact .dataPueOn
  case bitFirst =>
    split at h
    · rename_i hc; cases h; exact .bitFirst (getCmd_eq_ok hc)
    · cases h
  case bitSecond =>
    split at h
    · rename_i hc; cases h; exact .bitSecond (getCmd_eq_ok hc)
    · cases h
  case delay => cases h; exact .samples (b := s.status.smpBit) (sc := s.scratch) (n := s.fresh) (.inl rfl) fun _ => id
  case sample =>
    obtain ⟨n, hn⟩ := sample_state s
    cases h; rw [hn]; exact .samples (.inr (.inl rfl)) fun _ => id
  case ackClkLow =>
    obtain ⟨n, hn⟩ := readHeldBit_state s.status.ackBit s
    rw [hn] at h; cases h; exact .clocks (.inl rfl)
  case pollReady | pollConversion =>
    have hholds := fun r => pollOnce_holds (r := r) h
    obtain ⟨b, sc, n, rfl⟩ := pollOnce_frame h
    exact .samples (by simp) hholds

theorem pollOnce_flow {level : Bool} {bound : Bound} {s t : State} {fl : Flow}
    (h : pollOnce level bound s = .ok (t, fl)) : fl = .advance ∨ fl = .again ∨ fl = .raise .timeout := by
  unfold pollOnce at h
  simp only [pollMiss] at h
  split at h
  · cases h; exact .inl rfl
  · split at h
    · split at h <;> cases h
      · exact .inr (.inr rfl)
      · exact .inr (.inl rfl)
    · cases h

/-- What follows a sub-step: the next index, but for a poll that goes on, and a raise at a poll or at the acknowledgment
(R142, R145, R146). -/
theorem perform_flow {a : Act} {s t : State} {fl : Flow} (h : perform a s = .ok (t, fl)) :
    fl = .advance ∨ (fl = .again ∧ (a = .pollReady ∨ a = .pollConversion)) ∨
      (∃ o, fl = .raise o ∧ (o = .nack ∨ o = .timeout) ∧ (a = .ackClkLow ∨ a = .pollReady ∨ a = .pollConversion)) := by
  cases a <;> simp only [perform] at h
  case bitFirst | bitSecond => split at h <;> cases h; exact .inl rfl
  case ackClkLow =>
    cases h
    cases (readHeldBit s.status.ackBit s).1
    · exact .inl rfl
    · exact .inr (.inr ⟨_, rfl, .inl rfl, .inl rfl⟩)
  case pollReady | pollConversion => obtain hfl | hfl | hfl := pollOnce_flow h <;> simp [hfl]
  all_goals cases h; exact .inl rfl

section
variable {a : Act} {s t : State}

theorem SubStepEffect.holds (h : SubStepEffect s a t) {r : ScratchReg} (hr : s.scratch.holds r = true) :
    t.scratch.holds r = true := by
  cases h with
  | samples _ hsc => exact hsc r hr
  | bitFirst | bitSecond => split <;> exact hr
  | _ => exact hr

/-- No sub-step makes CLK an input (R24). -/
theorem SubStepEffect.clkDir (h : SubStepEffect s a t) (hout : s.lines.clkDir = .out) : t.lines.clkDir = .out := by
  cases h with
  | clkConfigure => rfl
  | bitFirst | bitSecond => split <;> exact hout
  | _ => exact hout

/-- A sub-step assigns a configuration flag only where it configures the line (R100, R101). -/
theorem SubStepEffect.assigned (h : SubStepEffect s a t) (line : ConfigLine) :
    (a = line.act ∧ line.assigned t.status = true ∧ line.configured t.lines) ∨
      (a ≠ line.act ∧ line.assigned t.status = line.assigned s.status) := by
  cases h with
  | clkConfigure => cases line with
    | clk => exact .inl ⟨rfl, rfl, rfl⟩
    | data => exact .inr ⟨by decide, rfl⟩
  | dataConfigure => cases line with
    | clk => exact .inr ⟨by decide, rfl⟩
    | data => exact .inl ⟨rfl, rfl, rfl⟩
  | samples ha =>
    refine .inr ⟨?_, by cases line <;> rfl⟩
    rcases ha with rfl | rfl | rfl | rfl <;> cases line <;> decide
  | clocks ha =>
    refine .inr ⟨?_, by cases line <;> rfl⟩
    rcases ha with rfl | rfl <;> cases line <;> simp [ConfigLine.act]
  | bitFirst | bitSecond => exact .inr ⟨by cases line <;> decide, by split <;> cases line <;> rfl⟩
  | _ => exact .inr ⟨by cases line <;> decide, by cases line <;> rfl⟩

/-- The open drain stays (R22), and DATA stands where the sub-step leaves it to be (R23, R102, R103, R141). -/
theorem SubStepEffect.data (h : SubStepEffect s a t) (hdrain : ¬ (s.lines.dataDir = .out ∧ s.lines.dataPue = true))
    (hready : dataReady s (some a)) :
    ¬ (t.lines.dataDir = .out ∧ t.lines.dataPue = true) ∧ dataReady t (opensSecond a) := by
  cases h with
  | samples ha => rcases ha with rfl | rfl | rfl | rfl <;> exact ⟨hdrain, hready⟩
  | clocks ha => rcases ha with rfl | rfl <;> exact ⟨hdrain, hready⟩
  | clkConfigure => exact ⟨hdrain, hready⟩
  | dataConfigure => simp_all [dataReady, opensSecond, atBoundary, setDataCfg, setDataPue]
  | dataPueOff => simp_all [dataReady, opensSecond, setDataPue]
  | dataDirOut => simp_all [dataReady, opensSecond, atBoundary, setDataDir]
  | dataDirIn => simp_all [dataReady, opensSecond, atBoundary, setDataDir]
  | dataPueOn => simp_all [dataReady, opensSecond, atBoundary, setDataPue]
  | bitFirst hc => split <;> simp_all [dataReady, opensSecond, setDataDir, setDataPue]
  | bitSecond hc => split <;> simp_all [dataReady, opensSecond, atBoundary, setDataDir, setDataPue]

end

end Sys2Proof.Machine

namespace Sys2Proof.Machine

/-! What the engine does in one step, by the operation it is about. -/

/-- An answer of the engine, taken apart: nothing; a rejection; the issue of an operation; the completion of a raise;
the sub-step at an index; the completion at the end. -/
inductive EngineStep (s : State) : State → Prop
  | stays : EngineStep s s
  | rejects : EngineStep s (reject s)
  | issues {op : Instr} {p : MicroProgram} (hp : programOf op = some p) (hseq : s.seq = .idle) :
      EngineStep s (issue op s)
  | endsRaise {op : Instr} {k : Nat} {o : OpResult} (hseq : s.seq = .run op k (.raised o)) :
      EngineStep s (complete o s)
  | takes {op : Instr} {p : MicroProgram} {k : Nat} {stage : Stage} {sub : SubStep} {s1 s2 : State} {fl : Flow}
      (hp : programOf op = some p) (hseq : s.seq = .run op k stage) (hstage : ∀ o, stage ≠ .raised o)
      (hsub : p.steps[k]? = some sub) (hpre : assignAll (if stage = .looping then [] else sub.pre) s = .ok s1)
      (hact : perform sub.act s1 = .ok (s2, fl)) : EngineStep s (s2.withSeq (nextSeq op k fl))
  | ends {op : Instr} {p : MicroProgram} {stage : Stage} {s1 : State} (hp : programOf op = some p)
      (hseq : s.seq = .run op p.steps.length stage) (hstage : ∀ o, stage ≠ .raised o)
      (hfinal : assignAll p.final s = .ok s1) : EngineStep s (complete .ok s1)

theorem operate_engineStep {op : Instr} {p : MicroProgram} {s t : State} (hp : programOf op = some p)
    (h : operate op p s = .next t) : EngineStep s t := by
  rcases operate_cases h with ⟨hseq, rfl⟩ | ⟨_, _, _, -, -, rfl⟩ | ⟨_, _, hseq, rfl⟩ |
    ⟨_, _, _, _, _, _, hseq, hstage, hsub, hpre, hact, rfl⟩ | ⟨_, _, hseq, hstage, hfinal, rfl⟩
  · rcases offer_cases op s with hoffer | ⟨-, -, hoffer⟩ <;> rw [hoffer]
    · exact .rejects
    · exact .issues hp hseq
  · exact .rejects
  · exact .endsRaise hseq
  · exact .takes hp hseq hstage hsub hpre hact
  · exact .ends hp hseq hstage hfinal

theorem EngineAnswers.engineStep {s t : State} (h : EngineAnswers s t) : EngineStep s t := by
  cases h with
  | stays => exact .stays
  | rejects => exact .rejects
  | @executes i _ _ hexec =>
    obtain ⟨op, p, hp, -, -, -, -, -, heq⟩ := exec_eq_operate i
    exact operate_engineStep hp ((heq s).symm.trans hexec)

/-- What one step of the machine can do: the watchdog's reset, or one step of the engine, with changes to the host
request port and the environment around it. -/
theorem step_engineStep {s t : State} (h : step s = .next t) :
    (∃ rest, s.env.agenda = .reset :: rest ∧ t = (setAgenda rest s).resetEngine) ∨
      ∃ s0 s1, SameEngine s s0 ∧ EngineStep s0 s1 ∧ SameEngine s1 t :=
  (step_cases h).imp_right fun ⟨s0, s1, hbefore, hanswer, hafter⟩ => ⟨s0, s1, hbefore, hanswer.engineStep, hafter⟩

/-! The assignments that ride on a sub-step. -/

theorem subStep_sound {op : Instr} {p : MicroProgram} {k : Nat} {sub : SubStep} (hp : programOf op = some p)
    (hsub : p.steps[k]? = some sub) :
    subStepSound (writtenBy (p.steps.take k)) sub = true ∧
      closesSecond (p.steps[k + 1]?.map SubStep.act) = opensSecond sub.act := by
  simpa using soundFrom_getElem (programOf_soundFrom hp) hsub

/-- They report no completion: RESULT and R25's conditions stay. -/
theorem pre_reports {op : Instr} {p : MicroProgram} {k : Nat} {stage : Stage} {sub : SubStep} {s s1 : State}
    (hp : programOf op = some p) (hsub : p.steps[k]? = some sub)
    (hpre : assignAll (if stage = .looping then [] else sub.pre) s = .ok s1) :
    s1.result = s.result ∧ ∀ line : ConfigLine, line.done s1.status = line.done s.status := by
  have hsound := (subStep_sound hp hsub).1
  simp only [subStepSound, Bool.and_eq_true, List.all_eq_true] at hsound
  have hquiet : ∀ u ∈ (if stage = .looping then [] else sub.pre), reportsCompletion u = false := by
    intro u hu
    split at hu
    · cases hu
    · simpa using hsound.2 u hu
  refine ⟨assignAll_result hpre fun hu => by simpa [reportsCompletion] using hquiet _ hu, fun line => ?_⟩
  have hnot : line.upd ∉ (if stage = .looping then [] else sub.pre) := fun hu => by
    cases line <;> simpa [ConfigLine.upd, reportsCompletion] using hquiet _ hu
  rw [assignAll_done hpre line, decide_eq_false hnot, Bool.false_or]

/-- The sub-step that configures a line goes on to the next. -/
theorem perform_configAct {a : Act} {line : ConfigLine} {s t : State} {fl : Flow} (h : perform a s = .ok (t, fl))
    (ha : a = line.act) : fl = .advance := by
  subst ha
  cases line <;> cases h <;> rfl

/-! RESULT, CLK's direction and the configuration flags in one step of the engine. -/

section
variable {s t : State}

theorem EngineStep.result (h : EngineStep s t) (hne : t.result ≠ s.result) :
    ∃ c k stage, s.seq = .run (.measure c) k stage ∧ t.seq = .idle ∧ t.status.outcome = .ok := by
  cases h with
  | takes hp hseq hstage hsub hpre hact =>
    obtain ⟨_, _, _, _, _, _, rfl⟩ := perform_frame hact
    exact absurd (pre_reports hp hsub hpre).1 hne
  | @ends op p _ _ hp hseq hstage hfinal =>
    by_cases hmem : .resultFromBytes ∈ p.final
    · obtain ⟨c, rfl⟩ := resultFromBytes_mem_final hp hmem
      exact ⟨c, _, _, hseq, rfl, rfl⟩
    · exact absurd (assignAll_result hfinal hmem) hne
  | _ => exact absurd rfl hne

theorem EngineStep.clkDir (h : EngineStep s t) (hout : s.lines.clkDir = .out) : t.lines.clkDir = .out := by
  cases h with
  | takes hp hseq hstage hsub hpre hact =>
    obtain ⟨_, _, _, _, _, _, _, rfl⟩ := assignAll_frame hpre
    exact (perform_effect hact).clkDir hout
  | ends hp hseq hstage hfinal =>
    obtain ⟨_, _, _, _, _, _, _, rfl⟩ := assignAll_frame hfinal
    exact hout
  | _ => exact hout

/-- A configuration flag is assigned in sub-step 2 of its own operation (R100, R101). -/
theorem EngineStep.assigned (h : EngineStep s t) (line : ConfigLine)
    (hne : line.assigned t.status ≠ line.assigned s.status) :
    (∃ stage, s.seq = .run line.op 1 stage) ∧ t.seq = .run line.op 2 .fresh ∧ line.configured t.lines ∧
      line.assigned t.status = true := by
  cases h with
  | takes hp hseq hstage hsub hpre hact =>
    obtain ⟨_, _, _, _, _, _, _, rfl⟩ := assignAll_frame hpre
    obtain ⟨ha, hset, hconf⟩ | ⟨-, hsame⟩ := (perform_effect hact).assigned line
    · obtain ⟨rfl, rfl⟩ := configAct_programOf hp hsub ha
      rw [perform_configAct hact ha]
      exact ⟨⟨_, hseq⟩, rfl, hconf, hset⟩
    · exact absurd (hsame.trans (by cases line <;> rfl)) hne
  | ends hp hseq hstage hfinal =>
    obtain ⟨_, _, _, _, _, _, _, rfl⟩ := assignAll_frame hfinal
    exact absurd (by cases line <;> rfl) hne
  | _ => exact absurd (by cases line <;> rfl) hne

/-- R25's condition is met in the completion step, with OK, of the line's own operation. -/
theorem EngineStep.done (h : EngineStep s t) (line : ConfigLine)
    (hne : line.done t.status ≠ line.done s.status) :
    (∃ stage, s.seq = .run line.op 2 stage ∧ ∀ o, stage ≠ .raised o) ∧ t.seq = .idle ∧
      line.done t.status = true ∧ t.status.busy = false ∧ t.status.outcome = .ok := by
  cases h with
  | takes hp hseq hstage hsub hpre hact =>
    have hpre := (pre_reports hp hsub hpre).2 line
    obtain ⟨_, _, _, _, _, _, rfl⟩ := perform_frame hact
    exact absurd (Eq.trans (by cases line <;> rfl) hpre) hne
  | @ends op p _ s1 hp hseq hstage hfinal =>
    have hdone : line.done (complete .ok s1).status = (decide (line.upd ∈ p.final) || line.done s.status) :=
      Eq.trans (by cases line <;> rfl) (assignAll_done hfinal line)
    by_cases hmem : line.upd ∈ p.final
    · obtain rfl := (configUpd_mem_final hp line).mp hmem
      rw [(configProgram_steps hp).1] at hseq
      exact ⟨⟨_, hseq, hstage⟩, rfl, by simpa [hmem] using hdone, rfl, rfl⟩
    · exact absurd (by simpa [hmem] using hdone) hne
  | _ => exact absurd (by cases line <;> rfl) hne

end

/-- Settles O38: a reset, or the engine's completion of a MEASURE with OK. -/
theorem onlyAnOkMeasureWritesResult : Obligations.OnlyAnOkMeasureWritesResult := by
  intro s t h hne
  obtain ⟨rest, hagenda, -⟩ | ⟨s0, s1, ⟨_, _, _, rfl⟩, hstep, ⟨_, _, _, rfl⟩⟩ := step_engineStep h
  · exact .inl ⟨rest, hagenda⟩
  · exact .inr (hstep.result hne)

/-- Settles O42: the engine's step sets CLK.DIR to OUT at most, and nothing else but a reset writes it. -/
theorem clkStaysAnOutput : Obligations.ClkStaysAnOutput := by
  intro s t h hout
  obtain ⟨rest, hagenda, -⟩ | ⟨s0, s1, ⟨_, _, _, rfl⟩, hstep, ⟨_, _, _, rfl⟩⟩ := step_engineStep h
  · exact .inr ⟨rest, hagenda⟩
  · exact .inl (hstep.clkDir hout)

end Sys2Proof.Machine

namespace Sys2Proof.Machine

/-! The engine's part of the invariant, and how each step of the engine keeps it. -/

/-- The invariant less what it says of the host request port. -/
structure EngineSound (s : State) : Prop where
  busy_iff : s.status.busy = true ↔ s.seq ≠ .idle
  running_none : s.status.busy = true → s.status.outcome = .none
  open_drain : ¬ (s.lines.dataDir = .out ∧ s.lines.dataPue = true)
  clk_out : s.status.clkCfg = true → s.lines.clkDir = .out
  calibrated : s.dlyCount = calibrate s.cfg
  seq_ready : seqReady s
  config_ready : configReady s

theorem engineInv_iff (s : State) : EngineInv s ↔ EngineSound s ∧ portReady s.port :=
  ⟨fun h => ⟨⟨h.busy_iff, h.running_none, h.open_drain, h.clk_out, h.calibrated, h.seq_ready, h.config_ready⟩,
    h.port_ready⟩,
    fun ⟨h, hport⟩ =>
      ⟨h.busy_iff, h.running_none, h.open_drain, h.clk_out, h.calibrated, h.seq_ready, h.config_ready, hport⟩⟩

theorem EngineSound.of_sameEngine {s t : State} (h : EngineSound s) (hst : SameEngine s t) : EngineSound t := by
  obtain ⟨_, _, _, rfl⟩ := hst
  exact ⟨h.busy_iff, h.running_none, h.open_drain, h.clk_out, h.calibrated, h.seq_ready, h.config_ready⟩

/-- What the invariant says of DATA, and of the index, at a stage of the running operation (R31). -/
def stageReady (p : MicroProgram) (k : Nat) (s : State) : Stage → Prop
  | .raised o => (o = .nack ∨ o = .timeout) ∧ atBoundary s
  | .looping => (∃ st, p.steps[k]? = some st ∧ (st.act = .pollReady ∨ st.act = .pollConversion)) ∧ atBoundary s
  | .fresh => dataReady s (p.steps[k]?.map SubStep.act)

theorem seqReady_idle {s : State} (hseq : s.seq = .idle) :
    seqReady s ↔ s.scratch = noScratch ∧ atBoundary s := by
  simp [seqReady, hseq]

theorem seqReady_run {s : State} {op : Instr} {p : MicroProgram} {k : Nat} {stage : Stage}
    (hseq : s.seq = .run op k stage) (hp : programOf op = some p) :
    seqReady s ↔ k ≤ p.steps.length ∧ scratchReady p k stage s.scratch = true ∧ stageReady p k s stage := by
  cases stage <;> simp [seqReady, hseq, hp, stageReady]

theorem scratchReady_iff (p : MicroProgram) (k : Nat) (stage : Stage) (sc : Scratch) :
    scratchReady p k stage sc = true ↔ ∀ r ∈ writtenBy (p.steps.take (doneSteps k stage)), sc.holds r = true := by
  simp [scratchReady]

/-! DATA between the sub-steps. -/

/-- Only which second sub-step comes next matters. -/
theorem dataReady_closesSecond (s : State) (a : Option Act) : dataReady s (closesSecond a) ↔ dataReady s a := by
  rcases a with _ | a
  · rfl
  · cases a <;> rfl

/-- At a stage before its sub-step is taken, DATA is ready for it. -/
theorem stageReady_dataReady {p : MicroProgram} {k : Nat} {s : State} {stage : Stage} {sub : SubStep}
    (h : stageReady p k s stage) (hstage : ∀ o, stage ≠ .raised o) (hsub : p.steps[k]? = some sub) :
    dataReady s (some sub.act) := by
  cases stage with
  | fresh => simpa [stageReady, hsub] using h
  | looping =>
    obtain ⟨⟨st, hst, hpoll⟩, hdata⟩ := h
    obtain rfl : sub = st := Option.some.inj (hsub.symm.trans hst)
    rcases hpoll with hpoll | hpoll <;> rw [hpoll] <;> exact hdata
  | raised o => exact absurd rfl (hstage o)

/-- Only the second half of a command bit looks at more than the lines and DATACFG. -/
theorem dataReady_congr {a : Act} {s t : State} (ha : a ≠ .bitSecond) (hlines : t.lines = s.lines)
    (hcfg : t.status.dataCfg = s.status.dataCfg) (h : dataReady s (some a)) : dataReady t (some a) := by
  cases a
  case bitSecond => exact absurd rfl ha
  all_goals simpa only [dataReady, atBoundary, hlines, hcfg] using h

/-- No assignment rides on the second half of a command bit, so those that ride on a sub-step leave DATA ready for
it. -/
theorem dataReady_pre {op : Instr} {p : MicroProgram} {k : Nat} {stage : Stage} {sub : SubStep} {s s1 : State}
    (hp : programOf op = some p) (hsub : p.steps[k]? = some sub)
    (hpre : assignAll (if stage = .looping then [] else sub.pre) s = .ok s1) (h : dataReady s (some sub.act)) :
    dataReady s1 (some sub.act) := by
  by_cases hbit : sub.act = .bitSecond
  · have hsound := (subStep_sound hp hsub).1
    have hnil : sub.pre = [] := by simp_all [subStepSound]
    rw [hnil, ite_self] at hpre
    cases hpre
    exact h
  · obtain ⟨_, _, _, _, _, _, _, rfl⟩ := assignAll_frame hpre
    exact dataReady_congr (s := s) hbit rfl rfl h

/-! The scratch registers. -/

theorem writtenBy_take_succ {l : List SubStep} {k : Nat} {sub : SubStep} (h : l[k]? = some sub) :
    writtenBy (l.take (k + 1)) = writtenBy (l.take k) ++ sub.pre.flatMap firstWrites := by
  simp [List.take_add_one, h, writtenBy]

/-- The registers that a sub-step reads hold values when its assignments have been done. -/
theorem pre_holds {p : MicroProgram} {k : Nat} {stage : Stage} {sub : SubStep} {s s1 : State}
    (hsub : p.steps[k]? = some sub) (hstage : ∀ o, stage ≠ .raised o)
    (hready : scratchReady p k stage s.scratch = true)
    (hpre : assignAll (if stage = .looping then [] else sub.pre) s = .ok s1) :
    ∀ r ∈ writtenBy (p.steps.take (k + 1)), s1.scratch.holds r = true := by
  rw [scratchReady_iff] at hready
  intro r hr
  cases stage with
  | fresh =>
    rw [writtenBy_take_succ hsub, List.mem_append] at hr
    exact assignAll_holds hpre (hr.symm.imp_right (hready r))
  | looping => exact assignAll_holds hpre (.inr (hready r hr))
  | raised o => exact absurd rfl (hstage o)

theorem writtenBy_take_subset {l : List SubStep} {m n : Nat} (h : m ≤ n) {r : ScratchReg}
    (hr : r ∈ writtenBy (l.take m)) : r ∈ writtenBy (l.take n) := by
  obtain ⟨st, hst, hr⟩ := List.mem_flatMap.mp hr
  exact List.mem_flatMap.mpr ⟨st, (List.take_subset_take_left l h) hst, hr⟩

end Sys2Proof.Machine

namespace Sys2Proof.Machine

/-! Each step of the engine keeps its part of the invariant. -/

/-- Every micro-program starts at a boundary of DATA and ends at one. -/
theorem dataReady_ends {op : Instr} {p : MicroProgram} (hp : programOf op = some p) (s : State) :
    (dataReady s (p.steps[0]?.map SubStep.act) ↔ atBoundary s) ∧
      (dataReady s (p.steps[p.steps.length]?.map SubStep.act) ↔ atBoundary s) := by
  have hhead := soundFrom_head (programOf_soundFrom hp)
  rw [List.head?_eq_getElem?] at hhead
  refine ⟨?_, by simp [dataReady]⟩
  rw [← dataReady_closesSecond, hhead]
  rfl

theorem EngineSound.rejects {s : State} (hs : EngineSound s) : EngineSound (reject s) :=
  ⟨hs.busy_iff, hs.running_none, hs.open_drain, hs.clk_out, hs.calibrated, hs.seq_ready, hs.config_ready⟩

theorem EngineSound.issues {s : State} (hs : EngineSound s) {op : Instr} {p : MicroProgram}
    (hp : programOf op = some p) (hseq : s.seq = .idle) : EngineSound (issue op s) where
  busy_iff := by simp [issue]
  running_none := fun _ => rfl
  open_drain := hs.open_drain
  clk_out := hs.clk_out
  calibrated := hs.calibrated
  seq_ready := by
    obtain ⟨-, hdata⟩ := (seqReady_idle hseq).mp hs.seq_ready
    exact (seqReady_run (stage := .fresh) rfl hp).mpr ⟨Nat.zero_le _, rfl, (dataReady_ends hp (issue op s)).1.mpr hdata⟩
  config_ready := (configReady_iff _).mpr fun line => by
    have hline := (configReady_iff s).mp hs.config_ready line
    have hnot : (issue op s).seq ≠ .run line.op 2 .fresh := by simp [issue]
    rw [hseq, or_iff_left (by simp)] at hline
    rw [or_iff_left hnot]
    cases line <;> exact hline

/-- The completion step makes the engine's part of the invariant from a boundary of DATA, where each flag that is
assigned has its condition. -/
theorem engineSound_complete {s : State} (o : OpResult)
    (hdrain : ¬ (s.lines.dataDir = .out ∧ s.lines.dataPue = true))
    (hclk : s.status.clkCfg = true → s.lines.clkDir = .out) (hdly : s.dlyCount = calibrate s.cfg) (hdata : atBoundary s)
    (hdone : ∀ line : ConfigLine, line.assigned s.status = true ↔ line.done s.status = true) :
    EngineSound (complete o s) where
  busy_iff := by simp [complete]
  running_none := fun h => by cases h
  open_drain := hdrain
  clk_out := hclk
  calibrated := hdly
  seq_ready := ⟨rfl, hdata⟩
  config_ready := (configReady_iff _).mpr fun line => by
    have hline := hdone line
    have hnot : (complete o s).seq ≠ .run line.op 2 .fresh := by simp [complete]
    rw [or_iff_left hnot]
    cases line <;> exact hline

theorem EngineSound.endsRaise {s : State} (hs : EngineSound s) {op : Instr} {k : Nat} {o : OpResult}
    (hseq : s.seq = .run op k (.raised o)) : EngineSound (complete o s) := by
  have hready := hs.seq_ready
  simp only [seqReady, hseq] at hready
  obtain ⟨p, -, -, -, -, hdata⟩ := hready
  refine engineSound_complete o hs.open_drain hs.clk_out hs.calibrated hdata fun line => ?_
  rw [(configReady_iff s).mp hs.config_ready line]
  simp [hseq]

/-- At the end of its micro-program an operation waits for its completion step. -/
theorem EngineSound.fresh_of_end {s : State} (hs : EngineSound s) {op : Instr} {p : MicroProgram} {stage : Stage}
    (hp : programOf op = some p) (hseq : s.seq = .run op p.steps.length stage) (hstage : ∀ o, stage ≠ .raised o) :
    stage = .fresh := by
  obtain ⟨-, -, hdata⟩ := (seqReady_run hseq hp).mp hs.seq_ready
  cases stage with
  | fresh => rfl
  | looping =>
    obtain ⟨⟨st, hst, -⟩, -⟩ := hdata
    simp at hst
  | raised o => exact absurd rfl (hstage o)

theorem EngineSound.ends {s : State} (hs : EngineSound s) {op : Instr} {p : MicroProgram} {stage : Stage} {s1 : State}
    (hp : programOf op = some p) (hseq : s.seq = .run op p.steps.length stage) (hstage : ∀ o, stage ≠ .raised o)
    (hfinal : assignAll p.final s = .ok s1) : EngineSound (complete .ok s1) := by
  obtain rfl := hs.fresh_of_end hp hseq hstage
  have hdone := fun line => assignAll_done hfinal line
  obtain ⟨-, -, hdata⟩ := (seqReady_run hseq hp).mp hs.seq_ready
  replace hdata : atBoundary s := (dataReady_ends hp s).2.mp hdata
  have hassigned := (configReady_iff s).mp hs.config_ready
  obtain ⟨_, _, _, _, _, _, _, rfl⟩ := assignAll_frame hfinal
  refine engineSound_complete .ok hs.open_drain hs.clk_out hs.calibrated hdata fun line => ?_
  have hwaits : s.seq = .run line.op 2 .fresh ↔ op = line.op := by
    rw [hseq, Seq.run.injEq]
    exact ⟨fun h => h.1, by rintro rfl; exact ⟨rfl, (configProgram_steps hp).1, rfl⟩⟩
  have hflag : line.assigned s.status = true ↔ (decide (line.upd ∈ p.final) || line.done s.status) = true := by
    rw [hassigned line, hwaits, ← configUpd_mem_final hp line]
    simp [or_comm]
  rw [hdone line, ← hflag]
  cases line <;> rfl

section
variable {s : State} (hs : EngineSound s) {op : Instr} {p : MicroProgram} {k : Nat} {stage : Stage} {sub : SubStep}
  {s1 s2 : State} {fl : Flow} (hp : programOf op = some p) (hseq : s.seq = .run op k stage)
  (hstage : ∀ o, stage ≠ .raised o) (hsub : p.steps[k]? = some sub)
  (hpre : assignAll (if stage = .looping then [] else sub.pre) s = .ok s1) (hact : perform sub.act s1 = .ok (s2, fl))

include hs hp hseq hsub hpre hact

include hstage in
/-- What a sub-step leaves in SEQ is ready: the registers written by then hold values, and DATA stands where the next
sub-step needs it, or at a boundary where a poll goes on or a raise ends the operation. -/
theorem EngineSound.seqReady_takes (hdata : dataReady s2 (opensSecond sub.act)) :
    seqReady (s2.withSeq (nextSeq op k fl)) := by
  obtain ⟨-, hscratch, -⟩ := (seqReady_run hseq hp).mp hs.seq_ready
  have hholds : ∀ r ∈ writtenBy (p.steps.take (k + 1)), s2.scratch.holds r = true := fun r hr =>
    (perform_effect hact).holds (pre_holds hsub hstage hscratch hpre r hr)
  have hlt : k < p.steps.length := (List.getElem?_eq_some_iff.mp hsub).1
  obtain rfl | ⟨rfl, hpoll⟩ | ⟨o, rfl, ho, hraise⟩ := perform_flow hact
  · refine (seqReady_run (stage := .fresh) rfl hp).mpr ⟨hlt, (scratchReady_iff ..).mpr hholds, ?_⟩
    rw [← (subStep_sound hp hsub).2, dataReady_closesSecond] at hdata
    exact hdata
  · refine (seqReady_run (stage := .looping) rfl hp).mpr
      ⟨hlt.le, (scratchReady_iff ..).mpr hholds, ⟨sub, hsub, hpoll⟩, ?_⟩
    rcases hpoll with hpoll | hpoll <;> rw [hpoll] at hdata <;> exact hdata
  · refine (seqReady_run (stage := .raised o) rfl hp).mpr ⟨hlt.le, (scratchReady_iff ..).mpr fun r hr => ?_, ho, ?_⟩
    · exact hholds r (writtenBy_take_subset (Nat.le_succ k) hr)
    · rcases hraise with hraise | hraise | hraise <;> rw [hraise] at hdata <;> exact hdata

/-- The flags stay, but for the configuring sub-step, after which the operation waits for its completion. -/
theorem EngineSound.configReady_takes : configReady (s2.withSeq (nextSeq op k fl)) := by
  refine (configReady_iff _).mpr fun line => ?_
  have hdone : line.done s2.status = line.done s.status := by
    rw [← (pre_reports hp hsub hpre).2 line]
    obtain ⟨_, _, _, _, _, _, rfl⟩ := perform_frame hact
    cases line <;> rfl
  obtain ⟨ha, hset, -⟩ | ⟨ha, hsame⟩ := (perform_effect hact).assigned line
  · obtain ⟨rfl, rfl⟩ := configAct_programOf hp hsub ha
    obtain rfl := perform_configAct hact ha
    simp [hset, nextSeq]
  · have hbefore : s.seq ≠ .run line.op 2 .fresh := by
      rw [hseq]
      rintro ⟨rfl, rfl, rfl⟩
      have := (List.getElem?_eq_some_iff.mp hsub).1
      rw [(configProgram_steps hp).1] at this
      omega
    have hafter : nextSeq op k fl ≠ .run line.op 2 .fresh := by
      intro h
      cases fl <;> cases h
      have hnext := (configProgram_steps hp).2
      rw [hsub] at hnext
      exact ha (Option.some.inj hnext)
    have hassigned : line.assigned s2.status = line.assigned s.status := by
      rw [hsame]
      obtain ⟨_, _, _, _, _, _, _, rfl⟩ := assignAll_frame hpre
      cases line <;> rfl
    have hline := (configReady_iff s).mp hs.config_ready line
    simpa [hassigned, hdone, hbefore, hafter] using hline

include hstage in
/-- A sub-step keeps the engine's part of the invariant. -/
theorem EngineSound.takes : EngineSound (s2.withSeq (nextSeq op k fl)) := by
  obtain ⟨-, -, hstageReady⟩ := (seqReady_run hseq hp).mp hs.seq_ready
  have hready := dataReady_pre hp hsub hpre (stageReady_dataReady hstageReady hstage hsub)
  have hconfig := hs.configReady_takes hp hseq hsub hpre hact
  have hnext := hs.seqReady_takes hp hseq hstage hsub hpre hact
  have hbusy : s.status.busy = true := hs.busy_iff.mpr (by simp [hseq])
  have hassigned := (perform_effect hact).assigned .clk
  have hkeeps := (perform_effect hact).clkDir
  obtain ⟨_, _, _, _, _, _, _, rfl⟩ := assignAll_frame hpre
  obtain ⟨hdrain, hdata⟩ := (perform_effect hact).data hs.open_drain hready
  obtain ⟨_, _, _, _, _, _, rfl⟩ := perform_frame hact
  refine ⟨?_, fun _ => hs.running_none hbusy, hdrain, ?_, hs.calibrated, hnext hdata, hconfig⟩
  · cases fl <;> simpa [nextSeq] using hbusy
  · intro hcfg
    obtain ⟨-, -, hout⟩ | ⟨-, hsame⟩ := hassigned
    · exact hout
    · exact hkeeps (hs.clk_out (hsame.symm.trans hcfg))

end

theorem EngineStep.engineSound {s t : State} (h : EngineStep s t) (hs : EngineSound s) : EngineSound t := by
  cases h with
  | stays => exact hs
  | rejects => exact hs.rejects
  | issues hp hseq => exact hs.issues hp hseq
  | endsRaise hseq => exact hs.endsRaise hseq
  | takes hp hseq hstage hsub hpre hact => exact hs.takes hp hseq hstage hsub hpre hact
  | ends hp hseq hstage hfinal => exact hs.ends hp hseq hstage hfinal

end Sys2Proof.Machine

namespace Sys2Proof.Machine

/-! The host request port keeps its part of the invariant. -/

theorem EngineAnswers.port {s t : State} (h : EngineAnswers s t) : t.port = s.port := by
  cases h with
  | stays => rfl
  | rejects => rfl
  | executes _ hexec =>
    obtain ⟨-, -, hport, -⟩ := exec_frame hexec
    exact hport

theorem portRead_port {offset : BitVec 4} {width : Nat} {s t : State} (h : portRead offset width s = .next t) :
    t.port = s.port := by
  obtain ⟨n, hn⟩ := readRegister_state offset s
  unfold portRead at h
  split at h
  · rcases hread : readRegister offset s with ⟨v, s1⟩
    rw [hread] at h hn
    cases hn
    cases h
    rfl
  · cases h

theorem presentRequest_port {r : Request} {s t : State} (h : presentRequest r s = .next t) : t.port = s.port := by
  unfold presentRequest at h
  split at h <;> cases h
  rfl

theorem respond_port (len : Fin 5) (s : State) :
    (respond len s).port = { s.port with req := none, respLen := len, phase := .idle } := by
  obtain ⟨m, hm⟩ :=
    readResponses_state len.val 0 (s.withPort { s.port with req := none, respLen := len, phase := .idle })
  simp only [respond, hm]
  rfl

/-- An empty response leaves the port idle, RESP_BUF as it was (R196, R199). -/
theorem portReady_respond_empty {s : State} (h : portReady s.port) : portReady (respond 0 s).port := by
  obtain ⟨-, hwf, -⟩ := h
  rw [respond_port]
  exact ⟨iff_of_true rfl rfl, hwf, .inl rfl⟩

/-- A response of two bytes has both of them stored (R192). -/
theorem portReady_respond_stored (w : Word) {s : State} (h : portReady s.port) :
    portReady (respond 2 (storeResult w s)).port := by
  obtain ⟨-, hwf, -⟩ := h
  rw [respond_port]
  refine ⟨iff_of_true rfl rfl, ?_, .inr ⟨rfl, ?_, ?_⟩⟩
  · exact Memory.wf_write _ _ _ (Memory.wf_write _ _ _ hwf (by decide)) (by decide)
  · simp [storeResult, Memory.read_write_other, Memory.read_write_same]
  · simp [storeResult, Memory.read_write_same]

/-- The port goes from one of its phases to another while it serves a request. -/
theorem portReady_setPhase {ph : PortPhase} {s : State} (h : portReady s.port) (hs : s.port.phase ≠ .idle)
    (hph : ph ≠ .idle) : portReady (setPhase ph s).port := by
  obtain ⟨hreq, hrest⟩ := h
  exact ⟨iff_of_false (fun hnone => hs (hreq.mp hnone)) hph, hrest⟩

theorem portReady_collectResult {s : State} (h : portReady s.port) : portReady (collectResult s).port := by
  obtain ⟨m, hm⟩ := readHeld_state s.result s
  unfold collectResult
  split
  · simp only [hm]
    exact portReady_respond_stored _ h
  · exact portReady_respond_empty h

theorem portReady_beginRequest {r : Request} {rest : List Request} {s t : State} (h : portReady s.port)
    (hbegin : beginRequest r rest s = .next t) : portReady t.port := by
  obtain ⟨-, hwf, hlen⟩ := h
  have waits (c : Byte) : portReady (setPhase (.waitIdle c)
      ((s.withEnv { s.env with inbox := rest }).withPort { s.port with req := some r })).port :=
    ⟨iff_of_false (Option.some_ne_none r) PortPhase.noConfusion, hwf, hlen⟩
  unfold beginRequest at hbegin
  simp only at hbegin
  split at hbegin
  · cases hbegin; exact waits _
  · split at hbegin
    · cases hbegin; exact waits _
    · split at hbegin
      · cases hbegin
      · cases hbegin
        rw [respond_port]
        exact ⟨iff_of_true rfl rfl, hwf, .inl rfl⟩

theorem portReady_servePort {s t : State} (h : portReady s.port) (hserve : servePort s = .next t) :
    portReady t.port := by
  have unlessBusy (b : Bool) {ph : PortPhase} (hs : s.port.phase ≠ .idle) (hph : ph ≠ .idle) :
      portReady (if b = true then s else setPhase ph s).port := by
    cases b with
    | true => exact h
    | false => exact portReady_setPhase h hs hph
  cases hphase : s.port.phase <;> simp only [servePort, hphase] at hserve
  case idle =>
    split at hserve
    · cases hserve; exact h
    · exact portReady_beginRequest h hserve
  case waitIdle c => cases hserve; exact unlessBusy _ (by simp [hphase]) (by simp)
  case write c =>
    obtain ⟨s1, hwrite, rfl⟩ := servePort_write hphase (by simpa only [servePort, hphase] using hserve)
    have hport := (portWrite_answers hwrite).port
    exact portReady_setPhase (hport ▸ h) (by simp [hport, hphase]) (by simp)
  case check =>
    cases hserve
    split
    · exact portReady_respond_empty h
    · exact portReady_setPhase h (by simp [hphase]) (by simp)
  case waitDone => cases hserve; exact unlessBusy _ (by simp [hphase]) (by simp)
  case collect => cases hserve; exact portReady_collectResult h

theorem portReady_resetPort : portReady resetPort := ⟨iff_of_true rfl rfl, resetPort_wf, .inl rfl⟩

theorem portReady_takeTurn {turn : Turn} {s t : State} (h : portReady s.port) (hturn : takeTurn turn s = .next t) :
    portReady t.port := by
  cases turn with
  | sensor d => cases hturn; exact h
  | engine => exact (engineTurn_answers hturn).port ▸ h
  | write offset width v => exact (portWrite_answers hturn).port ▸ h
  | read offset width => exact portRead_port hturn ▸ h
  | command b => exact (sendByte_answers hturn).port ▸ h
  | request r => exact presentRequest_port hturn ▸ h
  | serve => exact portReady_servePort h hturn
  | reset => cases hturn; exact portReady_resetPort

theorem portReady_step {s t : State} (h : portReady s.port) (hstep : step s = .next t) : portReady t.port := by
  unfold step nextTurn at hstep
  split at hstep
  · unfold unscheduledTurn at hstep
    simp only at hstep
    split at hstep
    · exact portReady_servePort (by exact h) hstep
    · obtain ⟨-, -, hport, -⟩ := exec_frame hstep
      exact hport ▸ h
  · exact portReady_takeTurn (by exact h) hstep

/-! The invariant. -/

theorem engineInv_resetEngine (s : State) : EngineInv s.resetEngine where
  busy_iff := by simp [resetStatus]
  running_none := fun _ => rfl
  open_drain := by simp [resetLines]
  clk_out := by simp [resetStatus]
  calibrated := rfl
  seq_ready := ⟨rfl, by simp [atBoundary, resetStatus]⟩
  config_ready := by simp [configReady, resetStatus]
  port_ready := portReady_resetPort

/-- Settles O57: the engine's part by the cases of its step, the port's by its own phases. -/
theorem everyStepKeepsTheInvariant : Obligations.EveryStepKeepsTheInvariant := by
  intro s t hinv hstep
  obtain ⟨hsound, hport⟩ := (engineInv_iff s).mp hinv
  obtain ⟨rest, -, rfl⟩ | ⟨s0, s1, hbefore, hengine, hafter⟩ := step_engineStep hstep
  · exact engineInv_resetEngine _
  · refine (engineInv_iff t).mpr ⟨?_, portReady_step hport hstep⟩
    exact (hengine.engineSound (hsound.of_sameEngine hbefore)).of_sameEngine hafter

/-- Settles O56: the state after reset is what a reset leaves. -/
theorem invariantHoldsAtReset : Obligations.InvariantHoldsAtReset :=
  engineInv_resetEngine State.reset

/-! Under the invariant the running operation takes its step. -/

/-- The sub-step at the index, where nothing in it faults. -/
theorem operate_takes {op : Instr} {p : MicroProgram} {k : Nat} {stage : Stage} {sub : SubStep} {s s1 s2 : State}
    {fl : Flow} (hseq : s.seq = .run op k stage) (hstage : ∀ o, stage ≠ .raised o) (hsub : p.steps[k]? = some sub)
    (hpre : assignAll (if stage = .looping then [] else sub.pre) s = .ok s1)
    (hact : perform sub.act s1 = .ok (s2, fl)) : operate op p s = .next (s2.withSeq (nextSeq op k fl)) := by
  cases stage with
  | fresh =>
    replace hpre : assignAll sub.pre s = .ok s1 := hpre
    simp [operate, hseq, continueOp, hsub, takeSubStep, hpre, hact]
  | looping =>
    replace hpre : assignAll [] s = .ok s1 := hpre
    simp [operate, hseq, continueOp, hsub, takeSubStep, hpre, hact]
  | raised o => exact absurd rfl (hstage o)

/-- The completion at the end, where no assignment that rides on it faults. -/
theorem operate_ends {op : Instr} {p : MicroProgram} {s s1 : State} (hseq : s.seq = .run op p.steps.length .fresh)
    (hfinal : assignAll p.final s = .ok s1) : operate op p s = .next (complete .ok s1) := by
  simp [operate, hseq, continueOp, finish, hfinal]

/-- Nothing in the sub-step at the index faults: it reads what the operation has written. -/
theorem EngineSound.subStep_answers {s : State} (hs : EngineSound s) {op : Instr} {p : MicroProgram} {k : Nat}
    {stage : Stage} {sub : SubStep} (hp : programOf op = some p) (hseq : s.seq = .run op k stage)
    (hstage : ∀ o, stage ≠ .raised o) (hsub : p.steps[k]? = some sub) :
    ∃ s1 s2 fl, assignAll (if stage = .looping then [] else sub.pre) s = .ok s1 ∧
      perform sub.act s1 = .ok (s2, fl) := by
  obtain ⟨-, hscratch, -⟩ := (seqReady_run hseq hp).mp hs.seq_ready
  have hsound := (subStep_sound hp hsub).1
  simp only [subStepSound, Bool.and_eq_true, List.all_eq_true, decide_eq_true_eq] at hsound
  obtain ⟨⟨⟨hreads, hactReads⟩, -⟩, -⟩ := hsound
  have hpre : ∃ s1, assignAll (if stage = .looping then [] else sub.pre) s = .ok s1 := by
    cases stage with
    | fresh => exact assignAll_answers hreads ((scratchReady_iff ..).mp hscratch)
    | looping => exact ⟨s, rfl⟩
    | raised o => exact absurd rfl (hstage o)
  obtain ⟨s1, hs1⟩ := hpre
  have hholds := pre_holds hsub hstage hscratch hs1
  rw [writtenBy_take_succ hsub] at hholds
  obtain ⟨s2, fl, hs2⟩ := perform_answers fun r hr => hholds r (hactReads r hr)
  exact ⟨s1, s2, fl, hs1, hs2⟩

/-- The running operation's own step goes on, stays in its poll, raises, or completes. -/
theorem EngineSound.operate_progress {s : State} (hs : EngineSound s) {op : Instr} {p : MicroProgram} {k : Nat}
    {stage : Stage} (hp : programOf op = some p) (hseq : s.seq = .run op k stage) :
    ∃ t, operate op p s = .next t ∧
      (t.seq = .run op (k + 1) .fresh ∨ t.seq = .run op k .looping ∨
        (∃ o, (o = .nack ∨ o = .timeout) ∧ t.seq = .run op k (.raised o)) ∨
        (t.seq = .idle ∧ t.status.busy = false ∧ t.status.outcome ≠ .none)) := by
  obtain ⟨hk, hscratch, hstageReady⟩ := (seqReady_run hseq hp).mp hs.seq_ready
  by_cases hraised : ∃ o, stage = .raised o
  · obtain ⟨o, rfl⟩ := hraised
    obtain ⟨ho, -⟩ := hstageReady
    refine ⟨complete o s, by simp [operate, hseq, continueOp], .inr (.inr (.inr ⟨rfl, rfl, ?_⟩))⟩
    rcases ho with rfl | rfl <;> exact OpResult.noConfusion
  have hstage : ∀ o, stage ≠ .raised o := not_exists.mp hraised
  cases hsub : p.steps[k]? with
  | some sub =>
    obtain ⟨s1, s2, fl, hpre, hact⟩ := hs.subStep_answers hp hseq hstage hsub
    refine ⟨_, operate_takes hseq hstage hsub hpre hact, ?_⟩
    obtain rfl | ⟨rfl, -⟩ | ⟨o, rfl, ho, -⟩ := perform_flow hact
    · exact .inl rfl
    · exact .inr (.inl rfl)
    · exact .inr (.inr (.inl ⟨o, ho, rfl⟩))
  | none =>
    obtain rfl : k = p.steps.length := le_antisymm hk (List.getElem?_eq_none_iff.mp hsub)
    obtain rfl := hs.fresh_of_end hp hseq hstage
    have hwritten := (scratchReady_iff ..).mp hscratch
    rw [doneSteps, List.take_length] at hwritten
    obtain ⟨s1, hfinal⟩ := assignAll_answers (programOf_final_readsCovered hp) hwritten
    exact ⟨_, operate_ends hseq hfinal, .inr (.inr (.inr ⟨rfl, rfl, OpResult.noConfusion⟩))⟩

/-- Settles O59: the step of the operation that SEQ names is that of its own micro-program. -/
theorem runningOperationTakesItsStep : Obligations.RunningOperationTakesItsStep := by
  intro op k stage s hinv hseq
  have hready := hinv.seq_ready
  simp only [seqReady, hseq] at hready
  obtain ⟨p, hp, -⟩ := hready
  obtain ⟨op', p', hp', hown, -, -, -, -, hexec⟩ := exec_eq_operate op
  obtain rfl := hown (by simp [hp])
  rw [hexec]
  exact ((engineInv_iff s).mp hinv).1.operate_progress hp' hseq

/-! Under the invariant no step faults. -/

/-- A step of any instruction is answered: it is offered, rejected, or the running operation's. -/
theorem EngineSound.exec_answers {s : State} (hs : EngineSound s) (i : Instr) : ∃ t, exec i s = .next t := by
  obtain ⟨op, p, hp, -, -, -, -, -, hexec⟩ := exec_eq_operate i
  rw [hexec]
  cases hseq : s.seq with
  | idle => exact ⟨offer op s, by simp [operate, hseq]⟩
  | run op' k stage =>
    by_cases hop : op' = op
    · subst hop
      obtain ⟨t, ht, -⟩ := hs.operate_progress hp hseq
      exact ⟨t, ht⟩
    · exact ⟨reject s, by simp [operate, hseq, hop]⟩

/-! A fault of a step is a fault of an instruction. -/

section
variable {s : State} {f : Fault}

theorem issueCode_fault {c : Code} (h : issueCode c s = .fault f) : ∃ i, exec i s = .fault f := by
  unfold issueCode at h
  split at h
  · cases h
  · split at h
    · exact ⟨_, h⟩
    · cases h

theorem portWrite_fault {offset : BitVec 4} {width : Nat} {v : Word} (h : portWrite offset width v s = .fault f) :
    ∃ i, exec i s = .fault f := by
  unfold portWrite at h
  split at h
  · split at h
    · exact issueCode_fault h
    · cases h
  · cases h

theorem sendByte_fault {b : Byte} (h : sendByte b s = .fault f) : ∃ i, exec i s = .fault f := by
  unfold sendByte at h
  split at h
  · cases h
  · split at h <;> exact ⟨_, h⟩

theorem engineTurn_fault (h : engineTurn s = .fault f) : ∃ i, exec i s = .fault f := by
  unfold engineTurn at h
  split at h
  · cases h
  · exact ⟨_, h⟩

theorem beginRequest_ne_fault (r : Request) (rest : List Request) : beginRequest r rest s ≠ .fault f := by
  unfold beginRequest
  simp only
  split
  · simp
  · split
    · simp
    · split <;> simp

theorem servePort_fault (h : servePort s = .fault f) : ∃ i, exec i s = .fault f := by
  unfold servePort at h
  split at h
  case h_1 =>
    split at h
    · cases h
    · exact absurd h (beginRequest_ne_fault _ _)
  case h_3 =>
    split at h
    · cases h
    · rename_i f' hwrite; cases h; exact portWrite_fault hwrite
    · cases h
  all_goals cases h

theorem takeTurn_fault {turn : Turn} (h : takeTurn turn s = .fault f) : ∃ i, exec i s = .fault f := by
  cases turn with
  | sensor d => cases h
  | engine => exact engineTurn_fault h
  | write offset width v => exact portWrite_fault h
  | read offset width => simp only [takeTurn, portRead] at h; split at h <;> cases h
  | command b => exact sendByte_fault h
  | request r => simp only [takeTurn, presentRequest] at h; split at h <;> cases h
  | serve => exact servePort_fault h
  | reset => cases h

/-- The instruction that faults does so in a state with the same engine. -/
theorem step_fault (h : step s = .fault f) : ∃ s0 i, SameEngine s s0 ∧ exec i s0 = .fault f := by
  unfold step nextTurn at h
  split at h
  · have driven : SameEngine s ((setDrive (Config.sensorDrive s.fresh) s).withFresh (s.fresh + 1)) :=
      (sameEngine_withEnv _ s).trans (sameEngine_withFresh _ _)
    unfold unscheduledTurn at h
    simp only at h
    split at h
    · obtain ⟨i, hi⟩ := servePort_fault h
      exact ⟨_, i, driven, hi⟩
    · exact ⟨_, _, driven, h⟩
  · obtain ⟨i, hi⟩ := takeTurn_fault h
    exact ⟨_, i, sameEngine_withEnv _ s, hi⟩

end

/-- Settles O58: only an instruction could fault, and under the invariant each one's step is answered. -/
theorem noStepFaultsUnderTheInvariant : Obligations.NoStepFaultsUnderTheInvariant := by
  intro s hinv f hfault
  obtain ⟨s0, i, hsame, hexec⟩ := step_fault hfault
  obtain ⟨t, ht⟩ := (((engineInv_iff s).mp hinv).1.of_sameEngine hsame).exec_answers i
  rw [ht] at hexec
  cases hexec

end Sys2Proof.Machine

namespace Sys2Proof.Machine

/-! The configuration flags as a step shows them. -/

/-- The flag as a read shows it (R25; log entry 9). -/
def ConfigLine.read (line : ConfigLine) (st : Status) : Bool := line.assigned st && line.done st

/-- The completion step of a configuration operation meets R25's condition, whatever the state. -/
theorem exec_configOp_completes (line : ConfigLine) {s : State} (hseq : s.seq = .run line.op 2 .fresh) :
    ∃ t, exec line.op s = .next t ∧ t.status.busy = false ∧ t.status.outcome = .ok ∧ line.done t.status = true ∧
      line.read t.status = line.assigned s.status := by
  cases line
  · refine ⟨complete .ok (setClkCfgDone s), operate_ends hseq rfl, rfl, rfl, rfl, ?_⟩
    exact Bool.and_true _
  · refine ⟨complete .ok (setDataCfgDone s), operate_ends hseq rfl, rfl, rfl, rfl, ?_⟩
    exact Bool.and_true _

/-- A step that changes a flag or its condition is a reset, or the engine's own. -/
theorem step_configLine {s t : State} (h : step s = .next t) (line : ConfigLine) :
    (line.assigned t.status ≠ line.assigned s.status →
      ((∃ rest, s.env.agenda = .reset :: rest) ∧ line.assigned t.status = false) ∨
      ((∃ stage, s.seq = .run line.op 1 stage) ∧ t.seq = .run line.op 2 .fresh ∧ line.configured t.lines ∧
        line.assigned t.status = true)) ∧
    (line.done t.status ≠ line.done s.status →
      ((∃ rest, s.env.agenda = .reset :: rest) ∧ line.done t.status = false) ∨
      ((∃ stage, s.seq = .run line.op 2 stage ∧ ∀ o, stage ≠ .raised o) ∧ t.seq = .idle ∧
        line.done t.status = true ∧ t.status.busy = false ∧ t.status.outcome = .ok)) := by
  obtain ⟨rest, hagenda, rfl⟩ | ⟨s0, s1, ⟨_, _, _, rfl⟩, hstep, ⟨_, _, _, rfl⟩⟩ := step_engineStep h
  · exact ⟨fun _ => .inl ⟨⟨rest, hagenda⟩, by cases line <;> rfl⟩,
      fun _ => .inl ⟨⟨rest, hagenda⟩, by cases line <;> rfl⟩⟩
  · exact ⟨fun hne => .inr (hstep.assigned line hne), fun hne => .inr (hstep.done line hne)⟩

/-- Under the invariant a flag comes to read 1 in the completion step of its operation only: one that has been assigned
with its condition unmet waits for that step. -/
theorem step_configLine_read {s t : State} (hinv : EngineInv s) (h : step s = .next t) {line : ConfigLine}
    (hs : line.read s.status = false) (ht : line.read t.status = true) :
    s.seq = .run line.op 2 .fresh ∧ t.status.busy = false ∧ t.status.outcome = .ok := by
  obtain ⟨hassigned, hdone⟩ : line.assigned t.status = true ∧ line.done t.status = true := Bool.and_eq_true_iff.mp ht
  have hunmet : line.done s.status = false := by
    by_contra hmet
    have hset := ((configReady_iff s).mp hinv.config_ready line).mpr (.inl (by simpa using hmet))
    simp [ConfigLine.read, hset, hmet] at hs
  obtain ⟨-, hfalse⟩ | ⟨⟨stage, hseq, hstage⟩, -, -, hbusy, hok⟩ := (step_configLine h line).2 (by simp [hdone, hunmet])
  · simp [hdone] at hfalse
  · obtain ⟨p, hp⟩ : ∃ p, programOf line.op = some p := by cases line <;> exact ⟨_, rfl⟩
    rw [← (configProgram_steps hp).1] at hseq
    obtain rfl := ((engineInv_iff s).mp hinv).1.fresh_of_end hp hseq hstage
    rw [(configProgram_steps hp).1] at hseq
    exact ⟨hseq, hbusy, hok⟩

/-- Settles O60: the four parts, for either line. -/
theorem configurationFlagsAreSetAtCompletion : Obligations.ConfigurationFlagsAreSetAtCompletion := by
  refine ⟨fun s => exec_configOp_completes .clk, fun s => exec_configOp_completes .data, fun s t h => ?_,
    fun s t hinv h => ⟨step_configLine_read (line := .clk) hinv h, step_configLine_read (line := .data) hinv h⟩⟩
  have completes {line : ConfigLine} (hne : line.done t.status ≠ line.done s.status) :
      ((∃ rest, s.env.agenda = .reset :: rest) ∧ line.done t.status = false) ∨
        ((∃ stage, s.seq = .run line.op 2 stage) ∧ t.seq = .idle ∧ line.done t.status = true) := by
    obtain hreset | ⟨⟨stage, hseq, -⟩, hidle, hdone, -⟩ := (step_configLine h line).2 hne
    · exact .inl hreset
    · exact .inr ⟨⟨stage, hseq⟩, hidle, hdone⟩
  exact ⟨(step_configLine h .clk).1, completes (line := .clk), (step_configLine h .data).1, completes (line := .data)⟩

/-! The bus levels and the two registers that show the machine's fields. -/

/-- Settles O20: by the cases of the two bus functions. -/
theorem busLevelsFollowTheLineRegisters : Obligations.BusLevelsFollowTheLineRegisters := by
  intro s
  refine ⟨fun h => ?_, fun hdir hdrv hup => ?_, fun hdir hdrv hpue hext => ?_, fun hdir => ?_, fun hdir => ?_⟩
  · simp [busData, h]
  · simp [busData, hdir, hdrv, hup]
  · simp [busData, hdir, hdrv, hpue, hext]; rfl
  · simp [busClk, hdir]
  · simp [busClk, hdir]; rfl

@[simp] theorem bitAt_false (i : Nat) : bitAt false i = 0#16 := rfl

@[simp] theorem getLsbD_bitAt (b : Bool) (i j : Nat) :
    (bitAt b i).getLsbD j = (b && decide (i < 16) && decide (i = j)) := by
  cases b
  · simp
  · simp [bitAt, BitVec.getLsbD_twoPow]

@[simp] theorem getElem_bitAt (b : Bool) (i j : Nat) (hj : j < 16) : (bitAt b i)[j] = (b && decide (i = j)) := by
  rw [← BitVec.getLsbD_eq_getElem, getLsbD_bitAt]
  by_cases hij : i = j <;> simp [hij, hj]

/-- OUTCOME's code has 2 bits (R27). -/
theorem getLsbD_outcomeCode_of_le (o : OpResult) {j : Nat} (hj : 2 ≤ j) : (outcomeCode o).getLsbD j = false := by
  have hlt : (outcomeCode o).toNat < 2 ^ 2 := by cases o <;> decide
  exact Nat.testBit_lt_two_pow (hlt.trans_le (Nat.pow_le_pow_right two_pos hj))

theorem getElem_outcomeCode_of_le (o : OpResult) {j : Nat} (hj : 2 ≤ j) (hlt : j < 16) :
    (outcomeCode o)[j] = false := by
  rw [← BitVec.getLsbD_eq_getElem, getLsbD_outcomeCode_of_le o hj]

/-- The bits of STATUS (R37). -/
theorem statusLayout_bits (st : Status) (ack smp : Bool) :
    let w := statusLayout st ack smp
    w.getLsbD 0 = st.busy ∧ w.extractLsb' 1 2 = (outcomeCode st.outcome).truncate 2 ∧ w.getLsbD 3 = st.illegal ∧
      w.getLsbD 4 = ack ∧ w.getLsbD 5 = smp ∧ w.getLsbD 6 = clkCfgRead st ∧ w.getLsbD 7 = dataCfgRead st ∧
      ∀ i, 8 ≤ i → w.getLsbD i = false := by
  refine ⟨?_, ?_, ?_, ?_, ?_, ?_, ?_, fun i hi => ?_⟩
  case refine_2 =>
    refine BitVec.eq_of_getLsbD_eq fun i hi => ?_
    obtain rfl | rfl : i = 0 ∨ i = 1 := by omega
    all_goals simp [statusLayout]
  case refine_8 =>
    have hne : ∀ j, j < 8 → j ≠ i := by omega
    simp [statusLayout, hne, getLsbD_outcomeCode_of_le _ (show 2 ≤ i - 1 by omega)]
  all_goals simp [statusLayout, getElem_outcomeCode_of_le]

theorem statusLayout_resetStatus (ack smp : Bool) : statusLayout resetStatus ack smp = bitAt ack 4 ||| bitAt smp 5 := by
  simp [statusLayout, resetStatus, outcomeCode, clkCfgRead, dataCfgRead]

/-- The bits of LINES (R38). -/
theorem linesLayout_bits (l : Lines) (clk data : Bool) :
    let w := linesLayout l clk data
    w.getLsbD 0 = decide (l.clkDir = .out) ∧ w.getLsbD 1 = l.clkLvl ∧ w.getLsbD 2 = false ∧
      w.getLsbD 3 = decide (l.dataDir = .out) ∧ w.getLsbD 4 = false ∧ w.getLsbD 5 = l.dataPue ∧
      w.getLsbD 6 = clk ∧ w.getLsbD 7 = data ∧ ∀ i, 8 ≤ i → w.getLsbD i = false := by
  refine ⟨?_, ?_, ?_, ?_, ?_, ?_, ?_, ?_, fun i hi => ?_⟩
  case refine_9 =>
    have hne : ∀ j, j < 8 → j ≠ i := by omega
    simp [linesLayout, hne]
  all_goals simp [linesLayout]

/-- A read of LINES changes the free-value index at most (R38). -/
theorem readLines_state (s : State) : ∃ n, (readLines s).2 = s.withFresh n := readRegister_state 4 s

/-- A write to a register other than OPW is ignored (R61). -/
theorem portWrite_ignored {offset : BitVec 4} (h : offset ≠ 0) (v : Word) (s : State) :
    portWrite offset 2 v s = .next s := by
  unfold portWrite
  rw [if_pos rfl, if_neg h]

/-- Settles O46: the layout bit by bit, with ACKBIT drawn before SMPBIT where they are unspecified. -/
theorem statusLayoutIsAsTabled : Obligations.StatusLayoutIsAsTabled := by
  intro s
  refine ⟨(readHeldBit s.status.ackBit s).1, (readHeldBit s.status.smpBit (readHeldBit s.status.ackBit s).2).1, ?_⟩
  obtain ⟨hbusy, houtcome, hillegal, hack, hsmp, hclk, hdata, hrest⟩ := statusLayout_bits s.status
    (readHeldBit s.status.ackBit s).1 (readHeldBit s.status.smpBit (readHeldBit s.status.ackBit s).2).1
  refine ⟨fun b hb => ?_, fun b hb => ?_, fun hb => ?_, fun hb => ?_, hbusy, houtcome, by decide, hillegal, hack, hsmp,
    hclk, hdata, hrest, fun i hi => ?_, fun v => portWrite_ignored (by decide) v s⟩
  · rw [hb]; rfl
  · rw [hb]; rfl
  · rw [hb]; rfl
  · rw [hb]; cases s.status.ackBit <;> rfl
  · have hreset : (readStatus s.resetEngine).1 = _ := statusLayout_resetStatus _ _
    have hne : 4 ≠ i ∧ 5 ≠ i := by revert i; decide
    simp [hreset, hne]

/-- Settles O47: the layout bit by bit, the two bus levels read in turn. -/
theorem linesLayoutIsAsTabled : Obligations.LinesLayoutIsAsTabled := by
  intro s
  obtain ⟨h0, h1, h2, h3, h4, h5, h6, h7, hrest⟩ := linesLayout_bits s.lines (busClk s).1 (busData (busClk s).2).1
  obtain ⟨n, hn⟩ := readLines_state s
  exact ⟨h0, h1, h2, h3, h4, h5, h6, h7, by rw [hn]; rfl, hrest, fun v => portWrite_ignored (by decide) v s⟩

end Sys2Proof.Machine

namespace Sys2Proof.Machine

/-! The register port's accesses. -/

/-- A read of OPW or of a reserved offset returns 0 and draws nothing (R61). -/
theorem readRegister_eq_zero {offset : BitVec 4} (h : offset = 0 ∨ 6 ≤ offset.toNat) (s : State) :
    readRegister offset s = (0, s) := by
  obtain rfl | hreserved := h
  · rfl
  · unfold readRegister
    split
    case h_6 => rfl
    all_goals omega

/-- A read of the port hands its register to the host and changes the free-value index at most (R62). -/
theorem portRead_answers (offset : BitVec 4) (s : State) :
    ∃ n, portRead offset 2 s =
      .next { s with env := { s.env with readData := some (readRegister offset s).1 }, fresh := n } := by
  obtain ⟨n, hn⟩ := readRegister_state offset s
  have hpair : readRegister offset s = ((readRegister offset s).1, s.withFresh n) := Prod.ext rfl hn
  refine ⟨n, ?_⟩
  unfold portRead
  rw [if_pos rfl, hpair]
  rfl

/-- A read of another width is refused (R63). -/
theorem portRead_refused (offset : BitVec 4) {width : Nat} (h : width ≠ 2) (s : State) :
    portRead offset width s = .refused (.accessWidth width) := if_neg h

/-- A write of another width is refused, to OPW too (R63). -/
theorem portWrite_refused (offset : BitVec 4) {width : Nat} (h : width ≠ 2) (v : Word) (s : State) :
    portWrite offset width v s = .refused (.accessWidth width) := if_neg h

/-- Settles O44: the value is the register's, offset by offset; RDATA and RESULT where they are specified. -/
theorem portReadsHaveNoSideEffect : Obligations.PortReadsHaveNoSideEffect := by
  intro s offset
  obtain ⟨n, hread⟩ := portRead_answers offset s
  refine ⟨(readRegister offset s).1, n, hread, ?zero, ?status, ?rdata, ?result, ?lines, ?cal⟩
  case zero =>
    intro h
    rw [readRegister_eq_zero h]
  case rdata =>
    rintro rfl b hb
    simp [readRegister, hb]
  case result =>
    rintro rfl w hw
    simp [readRegister, hw]
  all_goals
    rintro rfl
    rfl

/-- Settles O45: an ignored write, and the two refusals of a width other than 2. -/
theorem otherPortAccessesDoNothing : Obligations.OtherPortAccessesDoNothing :=
  ⟨fun s _ v hoffset => portWrite_ignored hoffset v s,
    fun s offset _ v hwidth => ⟨portWrite_refused offset hwidth v s, portRead_refused offset hwidth s⟩⟩

end Sys2Proof.Machine

namespace Sys2Proof

/-! Operation words and their fields, by place value (30_encoding.md R80). -/

theorem toNat_wordOf (f : OpFields) :
    (wordOf f).toNat = f.op.toNat * 4096 + f.rsv.toNat * 512 + f.s.toNat * 256 + f.imm8.toNat := by
  have hs := f.s.toNat_lt
  simp only [wordOf, BitVec.toNat_append, BitVec.toNat_ofBool]
  rw [← Nat.shiftLeft_add_eq_or_of_lt f.imm8.isLt, ← Nat.shiftLeft_add_eq_or_of_lt hs,
    ← Nat.shiftLeft_add_eq_or_of_lt f.rsv.isLt]
  simp only [Nat.shiftLeft_eq]
  omega

theorem toNat_op_fieldsOf (w : Word) : (fieldsOf w).op.toNat = w.toNat / 4096 := by
  simp only [fieldsOf, BitVec.extractLsb'_toNat, Nat.shiftRight_eq_div_pow]
  omega

theorem toNat_rsv_fieldsOf (w : Word) : (fieldsOf w).rsv.toNat = w.toNat / 512 % 8 := by
  simp only [fieldsOf, BitVec.extractLsb'_toNat, Nat.shiftRight_eq_div_pow]

theorem toNat_s_fieldsOf (w : Word) : (fieldsOf w).s.toNat = w.toNat / 256 % 2 := by
  simp only [fieldsOf, BitVec.getLsbD, Nat.testBit_eq_decide_div_mod_eq]
  obtain h | h := Nat.mod_two_eq_zero_or_one (w.toNat / 256) <;> simp [h]

theorem toNat_imm8_fieldsOf (w : Word) : (fieldsOf w).imm8.toNat = w.toNat % 256 := by
  simp [fieldsOf]

theorem OpFields.ext_toNat {f g : OpFields} (hop : f.op.toNat = g.op.toNat) (hrsv : f.rsv.toNat = g.rsv.toNat)
    (hs : f.s.toNat = g.s.toNat) (himm : f.imm8.toNat = g.imm8.toNat) : f = g := by
  have hs' : f.s = g.s := by rw [Bool.eq_iff_iff, ← Bool.toNat_eq_one, hs, Bool.toNat_eq_one]
  cases f
  cases g
  rw [OpFields.mk.injEq]
  exact ⟨BitVec.eq_of_toNat_eq hop, BitVec.eq_of_toNat_eq hrsv, hs', BitVec.eq_of_toNat_eq himm⟩

@[simp] theorem fieldsOf_wordOf (f : OpFields) : fieldsOf (wordOf f) = f := by
  have hrsv := f.rsv.isLt
  have hs := f.s.toNat_lt
  have himm := f.imm8.isLt
  apply OpFields.ext_toNat <;>
    simp only [toNat_op_fieldsOf, toNat_rsv_fieldsOf, toNat_s_fieldsOf, toNat_imm8_fieldsOf, toNat_wordOf] <;> omega

@[simp] theorem wordOf_fieldsOf (w : Word) : wordOf (fieldsOf w) = w := by
  apply BitVec.eq_of_toNat_eq
  simp only [toNat_op_fieldsOf, toNat_rsv_fieldsOf, toNat_s_fieldsOf, toNat_imm8_fieldsOf, toNat_wordOf]
  omega

@[simp] theorem fieldsOf_opWord (op : BitVec 4) (s : Bool) (imm8 : Byte) :
    fieldsOf (opWord op s imm8) = { op := op, rsv := 0, s := s, imm8 := imm8 } := fieldsOf_wordOf _

/-! Decoding operation words (30_encoding.md R81 to R83). -/

theorem OpFields.wf_iff (f : OpFields) :
    f.wf = true ↔ (1 ≤ f.op.toNat ∧ f.op.toNat ≤ 12) ∧ f.rsv = 0 ∧ (f.op ≠ 0xB → f.s = false) ∧
      (f.op ≠ 0xA → f.op ≠ 0xC → f.imm8 = 0) := by
  simp only [OpFields.wf, opAssigned, rsvZero, suppressOk, immOk, Bool.and_eq_true, Bool.or_eq_true,
    Bool.not_eq_true', decide_eq_true_eq]
  tauto

/-- The four conditions of R83. -/
theorem OpFields.not_wf_iff (f : OpFields) :
    ¬ f.wf = true ↔ (f.op.toNat = 0 ∨ f.op.toNat = 13 ∨ f.op.toNat = 14 ∨ f.op.toNat = 15) ∨ f.rsv.toNat ≠ 0 ∨
      (f.op.toNat ≠ 11 ∧ f.s.toNat ≠ 0) ∨ ((f.op.toNat ≠ 10 ∧ f.op.toNat ≠ 12) ∧ f.imm8.toNat ≠ 0) := by
  have hop := f.op.isLt
  rw [OpFields.wf_iff]
  cases f.s <;> simp [← BitVec.toNat_inj] <;> omega

/-- The numbers that name an operation are 0x1 to 0xC (R81). -/
theorem exists_operationOf_iff (op : BitVec 4) (s : Bool) (imm8 : Byte) :
    (∃ i, operationOf op s imm8 = some i) ↔ 1 ≤ op.toNat ∧ op.toNat ≤ 12 := by
  unfold operationOf
  split
  case h_13 =>
    simp only [reduceCtorEq, exists_false, false_iff, imp_false] at *
    omega
  all_goals simp [*]

theorem decodeWord_eq_ok_iff {w : Word} {i : Instr} :
    decodeWord w = .ok i ↔
      (fieldsOf w).wf = true ∧ operationOf (fieldsOf w).op (fieldsOf w).s (fieldsOf w).imm8 = some i := by
  unfold decodeWord
  simp only
  split
  · simp [*]
  · rename_i j hj
    have hop := (exists_operationOf_iff ..).mp ⟨j, hj⟩
    rw [OpFields.wf_iff, hj]
    split_ifs <;> simp_all

theorem exists_decodeWord_error_iff (w : Word) : (∃ r, decodeWord w = .error r) ↔ ¬ (fieldsOf w).wf = true := by
  cases h : decodeWord w with
  | ok i =>
    simp [(decodeWord_eq_ok_iff.mp h).1]
  | error r =>
    refine iff_of_true ⟨r, rfl⟩ fun hwf => ?_
    obtain ⟨i, hi⟩ := (exists_operationOf_iff (fieldsOf w).op (fieldsOf w).s (fieldsOf w).imm8).mpr
      ((OpFields.wf_iff _).mp hwf).1
    simp [decodeWord_eq_ok_iff.mpr ⟨hwf, hi⟩] at h

theorem encode_of_operationOf {f : OpFields} {i : Instr} (hwf : f.wf = true)
    (h : operationOf f.op f.s f.imm8 = some i) : encode i = .opw (wordOf f) := by
  obtain ⟨-, hrsv, hs, himm⟩ := f.wf_iff.mp hwf
  obtain ⟨op, rsv, s, imm8⟩ := f
  simp only at hrsv hs himm h
  unfold operationOf at h
  split at h <;> cases h
  all_goals
    rename_i hop
    obtain rfl : op = _ := by simpa only [BitVec.ofNat_toNat, BitVec.setWidth_eq] using congrArg (BitVec.ofNat 4) hop
    simp_all [encode, opWord]

theorem operationOf_of_encode {i : Instr} {w : Word} (h : encode i = .opw w) :
    operationOf (fieldsOf w).op (fieldsOf w).s (fieldsOf w).imm8 = some i := by
  cases i <;> cases h <;> rw [fieldsOf_opWord] <;> rfl

theorem codeWf_encode (i : Instr) : Laws.Encoding.codeWf (encode i) = true := by
  cases i
  exacts [Laws.Encoding.cfgClkIdleLow, Laws.Encoding.cfgDataReleased, Laws.Encoding.clkHigh, Laws.Encoding.clkLow,
    Laws.Encoding.dataPullLow, Laws.Encoding.dataRelease, Laws.Encoding.sampleData, Laws.Encoding.delayUnit,
    Laws.Encoding.start, Laws.Encoding.sendCmd _, Laws.Encoding.readByte _, Laws.Encoding.measure _,
    Laws.Encoding.cmdMeasureT, Laws.Encoding.cmdMeasureRh, Laws.Encoding.cmdReadStatus,
    Laws.Encoding.cmdWriteStatus, Laws.Encoding.cmdSoftReset]

theorem decodeWord_eq_ok_iff_encode {w : Word} {i : Instr} : decodeWord w = .ok i ↔ encode i = .opw w := by
  rw [decodeWord_eq_ok_iff]
  constructor
  · rintro ⟨hwf, hi⟩
    rw [encode_of_operationOf hwf hi, wordOf_fieldsOf]
  · intro h
    have hwf := codeWf_encode i
    rw [h] at hwf
    exact ⟨hwf, operationOf_of_encode h⟩

theorem decodeCommand_eq_ok_iff_encode {b : Byte} {i : Instr} : decodeCommand b = .ok i ↔ encode i = .cmd b := by
  constructor
  · intro h
    unfold decodeCommand at h
    split_ifs at h <;> cases h <;> simp [encode, *]
  · intro h
    cases i <;> cases h <;> rfl

/-- Decoding and encoding are inverse to each other (R83, R85, R92). -/
theorem decode_eq_ok_iff {c : Code} {i : Instr} : decode c = .ok i ↔ encode i = c := by
  cases c with
  | opw w => exact decodeWord_eq_ok_iff_encode
  | cmd b => exact decodeCommand_eq_ok_iff_encode

/-- Settles O2: the encoded code is one that decodes, by `decode_eq_ok_iff`. -/
theorem decodeOfEncodeIsTheInstruction : Obligations.DecodeOfEncodeIsTheInstruction :=
  fun _ => decode_eq_ok_iff.mpr rfl

/-- Settles O3: the other direction of `decode_eq_ok_iff`. -/
theorem encodeOfDecodeIsTheCode : Obligations.EncodeOfDecodeIsTheCode :=
  fun _ _ => decode_eq_ok_iff.mp

/-- Settles O4: the fields are the word's digits, so the four conditions are those of `OpFields.not_wf_iff`; an accepted
word is its instruction's code, whose fields are known. -/
theorem decodingRejectsOnFourConditions : Obligations.DecodingRejectsOnFourConditions := by
  intro w
  simp only
  rw [← toNat_op_fieldsOf, ← toNat_rsv_fieldsOf, ← toNat_s_fieldsOf, ← toNat_imm8_fieldsOf]
  constructor
  · rw [← OpFields.not_wf_iff]
    exact exists_decodeWord_error_iff w
  · intro i hi
    have hw := decode_eq_ok_iff.mp hi
    cases i <;> cases hw <;> simp

/-! Sensor command bytes (30_encoding.md R84, R85). -/

/-- Settles O5: the bytes that decode are the command bytes that `encode` writes, which are well formed. -/
theorem fiveCommandBytes : Obligations.FiveCommandBytes := by
  simp only [Obligations.FiveCommandBytes, decode_eq_ok_iff]
  refine ⟨fun b => ⟨?_, fun hb => ?_⟩, fun b i h => ?_⟩
  · rintro ⟨i, hi⟩
    have hwf := codeWf_encode i
    rw [hi] at hwf
    exact (Bool.and_eq_true_iff.mp hwf).2
  · simp only [commandNamed, decide_eq_true_eq, List.mem_cons, List.not_mem_nil, or_false] at hb
    obtain rfl | rfl | rfl | rfl | rfl := hb
    exacts [⟨.cmdMeasureT, rfl⟩, ⟨.cmdMeasureRh, rfl⟩, ⟨.cmdReadStatus, rfl⟩, ⟨.cmdWriteStatus, rfl⟩,
      ⟨.cmdSoftReset, rfl⟩]
  · cases i <;> cases h <;> exact ⟨rfl, rfl⟩

/-- Settles O1: the decoder runs on each word of R95. -/
theorem encodingExamplesDecode : Obligations.EncodingExamplesDecode := by
  unfold Obligations.EncodingExamplesDecode
  decide

end Sys2Proof

namespace Sys2Proof.Machine

/-! Issue and rejection (30_encoding.md R87 to R90). -/

theorem reject_eq (s : State) : reject s = { s with status := { s.status with illegal := true } } := rfl

theorem issue_eq (op : Instr) (s : State) :
    issue op s = { s with
      status := { s.status with busy := true, illegal := false, outcome := .none }
      seq := .run op 0 .fresh } := rfl

theorem needsConfig_iff (i : Instr) : needsConfig i = true ↔ i ≠ .cfgClkIdleLow ∧ i ≠ .cfgDataReleased := by
  cases i <;> simp [needsConfig]

/-- Both configuration operations are operations of SEQ. -/
theorem programOf_ne_none_of_not_needsConfig {i : Instr} (h : ¬ needsConfig i = true) : programOf i ≠ none := by
  cases i <;> simp [needsConfig, programOf] at h ⊢

/-- An operation offered while BUSY = 0 (R89, R90). -/
theorem offer_of_not_busy (op : Instr) {s : State} (hbusy : s.status.busy = false) :
    offer op s =
      if needsConfig op = true ∧ (s.status.clkCfg = false ∨ s.status.dataCfg = false) then reject s
      else issue op s := by
  have hconfig : ¬ (s.status.clkCfg = true ∧ s.status.dataCfg = true) ↔
      s.status.clkCfg = false ∨ s.status.dataCfg = false := by
    rw [not_and_or, Bool.not_eq_true, Bool.not_eq_true]
  unfold offer
  simp only [hbusy, Bool.false_eq_true, if_false, hconfig]

/-- With SEQ at IDLE an instruction offers its operation: itself, or the SEND_CMD of its byte. -/
theorem exec_offers (i : Instr) :
    ∃ op, (programOf i ≠ none → op = i) ∧ (∀ c, programOf i = none → commandOf i = some c → op = .sendCmd c) ∧
      needsConfig op = needsConfig i ∧ ∀ s : State, s.seq = .idle → exec i s = .next (offer op s) := by
  obtain ⟨op, p, -, hown, hbyte, -, hneeds, -, hexec⟩ := exec_eq_operate i
  exact ⟨op, hown, hbyte, hneeds, fun s hidle => by rw [hexec, operate, hidle]⟩

/-- An operation of SEQ is offered itself. -/
theorem exec_of_idle {i : Instr} (hi : programOf i ≠ none) {s : State} (hidle : s.seq = .idle) :
    exec i s = .next (offer i s) := by
  obtain ⟨op, hown, -, -, hexec⟩ := exec_offers i
  obtain rfl := hown hi
  exact hexec s hidle

/-- The operations of SEQ are the instructions that have an operation word (R31, R81). -/
theorem programOf_ne_none_iff (i : Instr) : programOf i ≠ none ↔ ∃ w, encode i = .opw w := by
  cases i <;> simp [programOf, encode]

/-! The handling of a code, by R87's order. -/

theorem issueCode_of_busy (c : Code) {s : State} (h : s.status.busy = true) : issueCode c s = .next (reject s) :=
  if_pos h

theorem issueCode_of_error {c : Code} {r : DecodeReject} (hc : decode c = .error r) (s : State) :
    issueCode c s = .next (reject s) := by
  simp [issueCode, hc]

theorem issueCode_of_ok {c : Code} {i : Instr} {s : State} (hbusy : s.status.busy = false) (hc : decode c = .ok i) :
    issueCode c s = exec i s := by
  simp [issueCode, hbusy, hc]

theorem sendByte_of_ok {b : Byte} {i : Instr} {s : State} (hbusy : s.status.busy = false)
    (hb : decode (.cmd b) = .ok i) : sendByte b s = exec i s := by
  simp [sendByte, hbusy, hb]

/-- A write to OPW offers a code (R60). -/
theorem portWrite_opw (w : Word) (s : State) : portWrite 0 2 w s = issueCode (.opw w) s := rfl

/-- Settles O7: R87's order is the order of the branches of `issueCode`, then `offer_of_not_busy`. -/
theorem opwWriteIsHandledInOrder : Obligations.OpwWriteIsHandledInOrder := by
  intro s w hseq
  simp only [portWrite_opw, ← reject_eq, ← issue_eq]
  by_cases hbusy : s.status.busy = true
  · rw [if_pos hbusy, issueCode_of_busy _ hbusy]
  rw [if_neg hbusy]
  have hidle : s.seq = .idle := by simpa [hseq] using hbusy
  rw [Bool.not_eq_true] at hbusy
  cases hw : decode (.opw w) with
  | error r => exact issueCode_of_error hw s
  | ok i =>
    have hop := (programOf_ne_none_iff i).mpr ⟨w, decode_eq_ok_iff.mp hw⟩
    simp only [issueCode_of_ok hbusy hw, exec_of_idle hop hidle, offer_of_not_busy i hbusy, needsConfig_iff, and_assoc]
    split <;> rfl

/-- Settles O9: what the instruction offers needs configuration exactly where the instruction does. -/
theorem unconfiguredOperationsAreRejected : Obligations.UnconfiguredOperationsAreRejected := by
  intro i s ⟨hidle, hbusy⟩ hunconf
  obtain ⟨op, hown, -, hneeds, hexec⟩ := exec_offers i
  rw [hexec s hidle, offer_of_not_busy op hbusy, hneeds, ← reject_eq, ← issue_eq]
  by_cases hi : needsConfig i = true
  · have hnot := (needsConfig_iff i).mp hi
    rw [if_pos ⟨hi, hunconf⟩, if_neg (not_or.mpr hnot)]
  · obtain rfl := hown (programOf_ne_none_of_not_needsConfig hi)
    have hconfig : op = .cfgClkIdleLow ∨ op = .cfgDataReleased := by
      rwa [needsConfig_iff, not_and_or, not_not, not_not] at hi
    rw [if_neg fun h => hi h.1, if_pos hconfig]

/-- Settles O10: a ready engine issues what the instruction offers. -/
theorem readyEngineIssues : Obligations.ReadyEngineIssues := by
  intro i s ⟨⟨hidle, hbusy⟩, hclk, hdata⟩
  obtain ⟨op, hown, hbyte, -, hexec⟩ := exec_offers i
  refine ⟨op, hown, hbyte, ?_⟩
  rw [hexec s hidle, offer_of_not_busy op hbusy, if_neg (by simp [hclk, hdata]), issue_eq]

/-! The assembler (30_encoding.md R93, R94). -/

/-- Settles O6: the assembler runs on each line, for every configuration. -/
theorem pseudoOperationsExpand : Obligations.PseudoOperationsExpand := by
  intro c
  exact ⟨rfl, rfl, rfl, rfl, rfl, rfl, rfl⟩

/-! Which agent a step runs. -/

theorem step_of_turn {s : State} {turn : Turn} {rest : List Turn} (h : s.env.agenda = turn :: rest) :
    step s = takeTurn turn (setAgenda rest s) := by
  rw [step, nextTurn, h]

theorem step_unscheduled {s : State} (h : s.env.agenda = []) : step s = unscheduledTurn s := by
  rw [step, nextTurn, h]

theorem engineTurn_of_run {s : State} {op : Instr} {k : Nat} {stage : Stage} (h : s.seq = .run op k stage) :
    engineTurn s = exec op s := by
  rw [engineTurn, h]

theorem unscheduledTurn_of_run {s : State} {op : Instr} {k : Nat} {stage : Stage} (h : s.seq = .run op k stage) :
    unscheduledTurn s = exec op ((setDrive (Config.sensorDrive s.fresh) s).withFresh (s.fresh + 1)) := by
  simp [unscheduledTurn, h]

theorem withFetchWord_opw (s : State) (w : Word) :
    s.withFetchWord 16 w.toNat = setAgenda (.write 0 2 w :: s.env.agenda) s := by
  have hcode : tableCode 16 w.toNat = some (.opw w) := by simp [tableCode, w.isLt]
  rw [State.withFetchWord, placeWord, hcode]
  rfl

/-- Settles O11: the step takes its turn, and the turn reaches `exec` with the decoded instruction or the running one. -/
theorem stepRunsTheDecodedInstruction : Obligations.StepRunsTheDecodedInstruction := by
  refine ⟨fun s w i rest hagenda hbusy hw => ?_, fun s b i rest hagenda hbusy hb => ?_,
    fun s op k stage rest hagenda hseq => ?_, fun s op k stage hagenda hseq => ?_, fun s w i hbusy hw => ?_⟩
  · rw [step_of_turn hagenda]
    exact issueCode_of_ok hbusy hw
  · rw [step_of_turn hagenda]
    exact sendByte_of_ok hbusy hb
  · rw [step_of_turn hagenda]
    exact engineTurn_of_run hseq
  · rw [step_unscheduled hagenda, unscheduledTurn_of_run hseq]
  · rw [withFetchWord_opw, step_of_turn (rest := s.env.agenda) rfl]
    exact issueCode_of_ok hbusy hw

end Sys2Proof.Machine

namespace Sys2Proof.Machine

/-! What each instruction writes: the frame, register by register (R100, R101, R108 to R112, R123, R137, R139, R148,
R170). -/

/-- A register that the frame speaks of; `scratch` is the four scratch registers together, `fresh` the free-value
index. -/
inductive Reg
  | clkDir
  | clkLvl
  | dataDir
  | dataPue
  | clkCfg
  | clkCfgDone
  | dataCfg
  | dataCfgDone
  | ackBit
  | smpBit
  | rdata
  | result
  | scratch
  | fresh
  deriving DecidableEq

/-- The register keeps its value from `s` to `t`. The scratch registers, which every completion empties (R30), stay
empty. -/
def Reg.Kept (s t : State) : Reg → Prop
  | .clkDir => t.lines.clkDir = s.lines.clkDir
  | .clkLvl => t.lines.clkLvl = s.lines.clkLvl
  | .dataDir => t.lines.dataDir = s.lines.dataDir
  | .dataPue => t.lines.dataPue = s.lines.dataPue
  | .clkCfg => t.status.clkCfg = s.status.clkCfg
  | .clkCfgDone => t.status.clkCfgDone = s.status.clkCfgDone
  | .dataCfg => t.status.dataCfg = s.status.dataCfg
  | .dataCfgDone => t.status.dataCfgDone = s.status.dataCfgDone
  | .ackBit => t.status.ackBit = s.status.ackBit
  | .smpBit => t.status.smpBit = s.status.smpBit
  | .rdata => t.rdata = s.rdata
  | .result => t.result = s.result
  | .scratch => s.scratch = noScratch → t.scratch = noScratch
  | .fresh => t.fresh = s.fresh

/-- The registers an assignment writes (R135). -/
def updWrites : Upd → List Reg
  | .loadCmd _ => [.scratch]
  | .shiftCmd => [.scratch]
  | .clearBitCnt => [.scratch]
  | .incBitCnt => [.scratch]
  | .ackFromSample => [.ackBit, .fresh]
  | .clearAcc => [.scratch]
  | .shiftInSample => [.scratch, .fresh]
  | .rdataFromAcc => [.rdata]
  | .clearPollCnt => [.scratch]
  | .resultFromBytes => [.result, .fresh]
  | .clkCfgDone => [.clkCfgDone]
  | .dataCfgDone => [.dataCfgDone]

/-- The registers a sub-step writes (40_line_controller.md, 42_transaction.md). -/
def actWrites : Act → List Reg
  | .clkLevel _ => [.clkLvl]
  | .clkConfigure => [.clkDir, .clkCfg]
  | .dataConfigure => [.dataPue, .dataCfg]
  | .dataPueOff => [.dataPue]
  | .dataDirOut => [.dataDir]
  | .dataDirIn => [.dataDir]
  | .dataPueOn => [.dataPue]
  | .bitFirst => [.dataDir, .dataPue]
  | .bitSecond => [.dataDir, .dataPue]
  | .delay => []
  | .sample => [.smpBit, .fresh]
  | .ackClkLow => [.clkLvl, .fresh]
  | .pollReady => [.smpBit, .scratch, .fresh]
  | .pollConversion => [.smpBit, .scratch, .fresh]

/-- The registers a micro-program writes before it completes. -/
def MicroProgram.writes (p : MicroProgram) : List Reg :=
  p.steps.flatMap (fun st => st.pre.flatMap updWrites ++ actWrites st.act) ++ p.final.flatMap updWrites

/-- The registers the rule of an instruction names. -/
def instrWrites : Instr → List Reg
  | .cfgClkIdleLow => [.clkLvl, .clkDir, .clkCfg, .clkCfgDone]
  | .cfgDataReleased => [.dataDir, .dataPue, .dataCfg, .dataCfgDone]
  | .clkHigh => [.clkLvl]
  | .clkLow => [.clkLvl]
  | .dataPullLow => [.dataPue, .dataDir]
  | .dataRelease => [.dataDir, .dataPue]
  | .sampleData => [.smpBit, .fresh]
  | .delayUnit => []
  | .start => [.clkLvl, .dataDir, .dataPue]
  | .readByte _ => [.clkLvl, .dataDir, .dataPue, .smpBit, .fresh, .scratch, .rdata]
  | .measure _ => [.clkLvl, .dataDir, .dataPue, .smpBit, .fresh, .scratch, .ackBit, .rdata, .result]
  | .sendCmd _ | .cmdMeasureT | .cmdMeasureRh | .cmdReadStatus | .cmdWriteStatus | .cmdSoftReset =>
    [.clkLvl, .dataDir, .dataPue, .smpBit, .fresh, .scratch, .ackBit]

section
variable {r : Reg} {s t u : State}

theorem Reg.Kept.refl (r : Reg) (s : State) : r.Kept s s := by
  cases r
  case scratch => exact id
  all_goals rfl

theorem Reg.Kept.trans (hst : r.Kept s t) (htu : r.Kept t u) : r.Kept s u := by
  cases r
  case scratch => exact htu ∘ hst
  all_goals exact Eq.trans htu hst

/-! What is written, step by step. -/

/-- BUSY, ILLEGAL, OUTCOME and SEQ are none of these registers: a rejection, an issue and a move of the sequencer keep
all of them. -/
theorem Reg.kept_control (r : Reg) (s : State) (busy illegal : Bool) (o : OpResult) (q : Seq) :
    r.Kept s { s with status := { s.status with busy := busy, illegal := illegal, outcome := o }, seq := q } := by
  cases r
  case scratch => exact id
  all_goals rfl

/-- A completion keeps all of them, too: it leaves the scratch registers empty. -/
theorem Reg.kept_complete (r : Reg) (o : OpResult) (s : State) : r.Kept s (complete o s) := by
  cases r
  case scratch => exact fun _ => rfl
  all_goals rfl

/-- An assignment keeps every register but those it writes. -/
theorem assign_kept {v : Upd} (h : assign v s = .ok t) (hr : r ∉ updWrites v) : r.Kept s t := by
  obtain ⟨n, hn⟩ := readHeldBit_state s.status.smpBit s
  obtain ⟨m, hm⟩ := readHeld_state s.rdata s
  cases v <;> simp only [assign, lastSample, hn, hm] at h
  case shiftCmd | incBitCnt | shiftInSample | rdataFromAcc | resultFromBytes =>
    split at h <;> cases h
    cases r <;> simp [updWrites, Reg.Kept, setCmd, setBitCnt, setAcc] at hr ⊢
  all_goals
    cases h
    cases r <;> simp [updWrites, Reg.Kept, setCmd, setBitCnt, setAcc, setPollCnt, setAckBit, setClkCfgDone,
      setDataCfgDone] at hr ⊢

theorem assignAll_kept {us : List Upd} (h : assignAll us s = .ok t) (hr : r ∉ us.flatMap updWrites) : r.Kept s t := by
  induction us generalizing s with
  | nil => cases h; exact .refl r _
  | cons v us ih =>
    rw [List.flatMap_cons, List.mem_append, not_or] at hr
    simp only [assignAll] at h
    split at h
    · rename_i s1 hs1
      exact (assign_kept hs1 hr.1).trans (ih h hr.2)
    · cases h

/-- A sub-step keeps every register but those it writes. -/
theorem perform_kept {a : Act} {fl : Flow} (h : perform a s = .ok (t, fl)) (hr : r ∉ actWrites a) : r.Kept s t := by
  obtain ⟨n, hn⟩ := sample_state s
  obtain ⟨m, hm⟩ := readHeldBit_state s.status.ackBit s
  cases a <;> simp only [perform, hn, hm] at h
  case delay => cases h; exact .refl r s
  case bitFirst | bitSecond =>
    split at h <;> cases h
    split <;> cases r <;> simp [actWrites, Reg.Kept, setDataDir, setDataPue] at hr ⊢
  case pollReady | pollConversion =>
    obtain ⟨_, _, _, rfl⟩ := pollOnce_frame h
    cases r <;> simp [actWrites, Reg.Kept] at hr ⊢
  all_goals
    cases h
    cases r <;> simp [actWrites, Reg.Kept, setClkLvl, setClkCfg, setClkOut, setDataCfg, setDataPue, setDataDir,
      setSmpBit] at hr ⊢

/-- A step of an operation keeps every register that its micro-program does not write: the issue, a rejection and a
completion write none of these. -/
theorem operate_kept {op : Instr} {p : MicroProgram} (h : operate op p s = .next t) (hr : r ∉ p.writes) :
    r.Kept s t := by
  rw [MicroProgram.writes, List.mem_append, not_or] at hr
  obtain ⟨hsteps, hfinal⟩ := hr
  rcases operate_cases h with ⟨-, rfl⟩ | ⟨_, _, _, -, -, rfl⟩ | ⟨_, _, -, rfl⟩ |
    ⟨_, _, sub, s1, s2, _, -, -, hsub, hpre, hact, rfl⟩ | ⟨_, s1, -, -, hend, rfl⟩
  · obtain hoffer | ⟨-, -, hoffer⟩ := offer_cases op s <;> rw [hoffer]
    · exact r.kept_control ..
    · exact r.kept_control ..
  · exact r.kept_control ..
  · exact r.kept_complete _ s
  · have hnot : r ∉ sub.pre.flatMap updWrites ++ actWrites sub.act := fun hmem =>
      hsteps (List.mem_flatMap_of_mem (List.mem_of_getElem? hsub) hmem)
    rw [List.mem_append, not_or] at hnot
    have hpre : r.Kept s s1 := assignAll_kept hpre (by split <;> simp [hnot.1])
    exact (hpre.trans (perform_kept hact hnot.2)).trans (r.kept_control ..)
  · exact (assignAll_kept hend hfinal).trans (r.kept_complete .ok s1)

end

/-- A micro-program writes what the operation's rule names: what it writes does not depend on the command byte. -/
theorem programOf_writes {op : Instr} {p : MicroProgram} (hp : programOf op = some p) :
    p.writes ⊆ instrWrites op := by
  cases op <;> cases hp
  case sendCmd c =>
    show (sendCmdProgram 0).writes ⊆ instrWrites (.sendCmd 0)
    decide
  case readByte sup => cases sup <;> decide
  case measure c =>
    show (measureProgram 0).writes ⊆ instrWrites (.measure 0)
    simp only [MicroProgram.writes, measureProgram, measureSeq, List.flatMap_append, List.append_subset]
    decide
  all_goals decide

/-- A step of an instruction keeps every register that its rule does not name. -/
theorem exec_kept {i : Instr} {s t : State} (h : exec i s = .next t) {r : Reg} (hr : r ∉ instrWrites i) :
    r.Kept s t := by
  obtain ⟨op, p, hp, hown, hbyte, -, -, -, hexec⟩ := exec_eq_operate i
  have hop : instrWrites op = instrWrites i := by
    by_cases hi : programOf i = none
    · cases i <;> cases hi <;> rw [hbyte _ rfl rfl] <;> rfl
    · rw [hown hi]
  exact operate_kept ((hexec s).symm.trans h) fun hmem => hr (hop ▸ programOf_writes hp hmem)

/-- Settles O41: no clause's register is among those that the rule of its instructions names. -/
theorem instructionsWriteOnlyTheirRegisters : Obligations.InstructionsWriteOnlyTheirRegisters := by
  intro i s t h
  have kept {l : List Instr} (hi : i ∈ l) (r : Reg) (hr : ∀ j ∈ l, r ∉ instrWrites j) : r.Kept s t :=
    exec_kept h (hr i hi)
  refine ⟨fun hread hmeasure => exec_kept (r := .rdata) h ?_, fun hmeasure => exec_kept (r := .result) h ?_,
    fun hcmd => exec_kept (r := .ackBit) h ?_,
    fun hi => ⟨exec_kept (r := .clkDir) h ?_, exec_kept (r := .clkCfg) h ?_, exec_kept (r := .clkCfgDone) h ?_⟩,
    fun hi => ⟨exec_kept (r := .dataCfg) h ?_, exec_kept (r := .dataCfgDone) h ?_⟩,
    fun hi => ⟨kept hi .smpBit (by decide), kept hi .fresh (by decide), kept hi .scratch (by decide)⟩,
    fun hi => kept hi .clkLvl (by decide),
    fun hi => ⟨kept hi .dataDir (by decide), kept hi .dataPue (by decide)⟩⟩
  all_goals
    clear kept h
    cases i <;> simp [instrWrites, commandOf] at *

end Sys2Proof.Machine

namespace Sys2Proof.Machine

/-! Runs of an accepted operation: the issue, the sub-steps, the completion (R90, R91). -/

/-- R87 accepts the operation: none runs, and the lines are configured where it needs them. -/
def Accepts (op : Instr) (s : State) : Prop :=
  Quiet s ∧ (needsConfig op = true → s.status.clkCfg = true ∧ s.status.dataCfg = true)

section
variable {i op : Instr} {p : MicroProgram} {s t u : State}

theorem Ready.accepts (h : Ready s) (op : Instr) : Accepts op s := ⟨h.1, fun _ => h.2⟩

theorem Quiet.accepts (h : Quiet s) (hop : needsConfig op = false) : Accepts op s :=
  ⟨h, fun hneeds => absurd hneeds (by simp [hop])⟩

theorem Accepts.offer_eq (h : Accepts op s) : offer op s = issue op s := by
  obtain ⟨⟨-, hbusy⟩, hconf⟩ := h
  rw [offer_of_not_busy op hbusy, if_neg]
  rintro ⟨hneeds, hunconf⟩
  simp [hconf hneeds] at hunconf

/-- The step of an operation of SEQ is a step of its own micro-program. -/
theorem exec_of_programOf (hp : programOf op = some p) (s : State) : exec op s = operate op p s := by
  obtain ⟨op', q, hq, hown, -, -, -, -, hexec⟩ := exec_eq_operate op
  obtain rfl := hown (by simp [hp])
  obtain rfl : q = p := by simpa [hp] using hq.symm
  exact hexec s

/-- The first step of a run of an accepted operation is its issue. -/
theorem runOp_issues (hexec : ∀ s, exec i s = operate op p s) (hs : Accepts op s) (d : Drive) (ds : List Drive) :
    runOp i (d :: ds) s = runOp i ds (issue op (setDrive d s)) := by
  have hdriven : Accepts op (setDrive d s) := hs
  refine runOp_cons ?_
  rw [hexec, operate, hdriven.1.1, hdriven.offer_eq]

/-- A run of an accepted operation that ends between two sub-steps. -/
theorem runOp_subSteps (hexec : ∀ s, exec i s = operate op p s) (hs : Accepts op s) {d : Drive} {ds : List Drive}
    {l rest : List SubStep} (hl : p.steps = l ++ rest) (h : runList l ds (issue op (setDrive d s)) = some t) :
    runOp i (d :: ds) s = .next (t.withSeq (.run op l.length .fresh)) := by
  rw [runOp_issues hexec hs, runOp_of_runList hexec (k := 0) hl rfl h, Nat.zero_add]

/-- A run of an accepted operation whose sub-steps each go on to the next ends in its completion with OK. -/
theorem runOp_completes (hexec : ∀ s, exec i s = operate op p s) (hs : Accepts op s) {d d' : Drive} {ds : List Drive}
    (h : runList p.steps ds (issue op (setDrive d s)) = some t) (hfinal : assignAll p.final (setDrive d' t) = .ok u) :
    runOp i (d :: ds ++ [d']) s = .next (complete .ok u) := by
  rw [runOp_append (runOp_subSteps hexec hs (List.append_nil _).symm h)]
  refine runOp_cons ((hexec _).trans (operate_ends (s1 := u.withSeq (.run op p.steps.length .fresh)) rfl ?_))
  exact (assignAll_withSeq p.final (setDrive d' t) _).trans (by rw [hfinal]; rfl)

end

/-! The line controller's operations. -/

/-- An instruction that needs both lines configured is rejected before they are (R89). -/
theorem rejectedUnconfigured {i : Instr} (hi : needsConfig i = true) : RejectedUnconfigured i := by
  intro s hs hunconf
  rw [unconfiguredOperationsAreRejected i s hs hunconf, if_neg]
  exact not_or.mpr ((needsConfig_iff i).mp hi)

/-- DATA while RELEASED is high unless the sensor pulls it low (R34). -/
theorem busData_released {s : State} (h : Released s) : busData s = (decide (s.env.sensDrv = .release), s) := by
  obtain ⟨hdir, hpue⟩ := h
  cases hdrv : s.env.sensDrv <;> simp [busData, hdir, hpue, hdrv]

/-- A sample is a draw: the engine drives DATA itself, or the line floats (R34, R107). -/
def SampleDraws (s : State) : Prop :=
  s.lines.dataDir = .out ∨ (s.env.sensDrv = .release ∧ s.lines.dataPue = false ∧ s.cfg.params.extPullup = false)

theorem sample_of_draws {s : State} (h : SampleDraws s) :
    sample s = (Config.drawBit s.fresh, setSmpBit (Config.drawBit s.fresh) (s.withFresh (s.fresh + 1))) := by
  by_cases hout : s.lines.dataDir = .out
  · exact sample_driven s hout
  · obtain ⟨hdrv, hpue, hext⟩ := h.resolve_left hout
    simp [sample, busData, hout, hdrv, hpue, hext, drawBit]

/-- A sample that is no draw is low exactly where the sensor pulls DATA low (R34, R107). -/
theorem sample_of_not_draws {s : State} (h : ¬ SampleDraws s) :
    sample s = (decide (s.env.sensDrv = .release), setSmpBit (decide (s.env.sensDrv = .release)) s) := by
  obtain ⟨hout, hfloat⟩ := not_or.mp h
  cases hdrv : s.env.sensDrv with
  | low => simp [sample, busData, hout, hdrv]
  | release =>
    have hup : s.lines.dataPue = true ∨ s.cfg.params.extPullup = true := by
      by_contra hnone
      exact hfloat ⟨hdrv, by simpa using hnone⟩
    simp [sample, busData, hout, hdrv, hup]

/-- Settles O14: two sub-steps on CLK, then the completion, which meets R25's condition. -/
theorem cfgClkIdleLowConfiguresClk : Obligations.CfgClkIdleLowConfiguresClk := by
  refine ⟨rfl, fun s d0 d1 d2 d3 hquiet => ?_⟩
  have hs := hquiet.accepts (op := .cfgClkIdleLow) rfl
  have hexec := exec_of_programOf (op := .cfgClkIdleLow) rfl
  exact ⟨⟨_, runOp_subSteps hexec hs (l := plain [.clkLevel false]) rfl rfl, rfl⟩,
    ⟨_, runOp_subSteps hexec hs (l := cfgClkIdleLowProgram.steps) rfl rfl, rfl, rfl, rfl, rfl⟩,
    runOp_completes hexec hs (ds := [d1, d2]) rfl rfl⟩

/-- Settles O15: two sub-steps on DATA, then the completion, which meets R25's condition. -/
theorem cfgDataReleasedConfiguresData : Obligations.CfgDataReleasedConfiguresData := by
  refine ⟨rfl, fun s d0 d1 d2 d3 hquiet => ?_⟩
  have hs := hquiet.accepts (op := .cfgDataReleased) rfl
  have hexec := exec_of_programOf (op := .cfgDataReleased) rfl
  exact ⟨⟨_, runOp_subSteps hexec hs (l := plain [.dataDirIn]) rfl rfl, rfl⟩,
    ⟨_, runOp_subSteps hexec hs (l := cfgDataReleasedProgram.steps) rfl rfl, rfl, rfl, rfl, rfl⟩,
    runOp_completes hexec hs (ds := [d1, d2]) rfl rfl⟩

/-- Settles O16: one sub-step, then the completion. -/
theorem clkHighAndClkLowDriveClk : Obligations.ClkHighAndClkLowDriveClk := by
  refine ⟨rfl, rfl, rejectedUnconfigured rfl, rejectedUnconfigured rfl, fun b s hout => if_pos hout,
    fun s d0 d1 d2 hready => ⟨?_, ?_⟩⟩
  · exact runOp_completes (exec_of_programOf rfl) (hready.accepts .clkHigh) (ds := [d1]) rfl rfl
  · exact runOp_completes (exec_of_programOf rfl) (hready.accepts .clkLow) (ds := [d1]) rfl rfl

/-- Settles O17: `DataLow()`, whose second sub-step drives the bus low, then the completion. -/
theorem dataPullLowPullsInOrder : Obligations.DataPullLowPullsInOrder := by
  refine ⟨rfl, rejectedUnconfigured rfl, fun s d0 d1 d2 d3 hready => ?_⟩
  have hs := hready.accepts .dataPullLow
  have hexec := exec_of_programOf (op := .dataPullLow) rfl
  exact ⟨⟨_, runOp_subSteps hexec hs (l := plain [.dataPueOff]) rfl rfl, rfl⟩,
    ⟨_, runOp_subSteps hexec hs (l := mDataLow) rfl rfl, rfl, if_pos (.inl rfl)⟩,
    runOp_completes hexec hs (ds := [d1, d2]) rfl rfl⟩

/-- Settles O18: `DataRelease()`, after which the sensor's drive is the level, then the completion. -/
theorem dataReleaseReleasesInOrder : Obligations.DataReleaseReleasesInOrder := by
  refine ⟨rfl, rejectedUnconfigured rfl, fun s d0 d1 d2 d3 hready => ?_⟩
  have hs := hready.accepts .dataRelease
  have hexec := exec_of_programOf (op := .dataRelease) rfl
  exact ⟨⟨_, runOp_subSteps hexec hs (l := plain [.dataDirIn]) rfl rfl, rfl⟩,
    ⟨_, runOp_subSteps hexec hs (l := mDataRelease) rfl rfl, rfl, busData_released ⟨rfl, rfl⟩⟩,
    runOp_completes hexec hs (ds := [d1, d2]) rfl rfl⟩

/-- Settles O19: one sample of the line as it stands, then the completion. -/
theorem sampleDataReadsTheLine : Obligations.SampleDataReadsTheLine := by
  refine ⟨rfl, rejectedUnconfigured rfl, fun s d0 d1 d2 hready => ?_⟩
  have hrun : runOp .sampleData [d0, d1, d2] s =
      .next (complete .ok (setDrive d2 (sample (setDrive d1 (issue .sampleData (setDrive d0 s)))).2)) :=
    runOp_completes (exec_of_programOf rfl) (hready.accepts .sampleData) (ds := [d1]) rfl rfl
  refine ⟨fun hdraws => hrun.trans ?_, fun hheld => hrun.trans ?_⟩
  · have hdraws : SampleDraws (setDrive d1 (issue .sampleData (setDrive d0 s))) := hdraws
    rw [sample_of_draws hdraws]
    rfl
  · have hheld : ¬ SampleDraws (setDrive d1 (issue .sampleData (setDrive d0 s))) := hheld
    rw [sample_of_not_draws hheld]
    rfl

end Sys2Proof.Machine

namespace Sys2Proof.Machine

/-! The timing calibrator: a configuration's delay count, and the one sub-step of DELAY_UNIT (R121 to R123). -/

/-- The model's ceiling is Mathlib's. -/
theorem ceilDiv_eq (a b : Nat) : ceilDiv a b = a ⌈/⌉ b := (Nat.ceilDiv_eq_add_pred_div a b).symm

theorem one_le_delayCount (t f c : Nat) : 1 ≤ delayCount t f c := le_max_left ..

/-- A count of at least 1 reaches the delay count exactly if its iterations, of `c` cycles each at `f` hertz, last `t`
nanoseconds. -/
theorem delayCount_le_iff {t f c m : Nat} (hc : 1 ≤ c) (hm : 1 ≤ m) :
    delayCount t f c ≤ m ↔ t * f ≤ m * (1000000000 * c) := by
  have hpos : 0 < 1000000000 * c := by omega
  rw [delayCount, max_le_iff, and_iff_right hm, ceilDiv_eq, ceilDiv_le_iff_le_mul hpos, Nat.mul_comm m]

theorem one_le_cyclesPerIter_of_ok {p : Params} (h : p.ok = true) : 1 ≤ p.cyclesPerIter := by
  simp only [Params.ok, Bool.and_eq_true, decide_eq_true_eq] at h
  tauto

theorem countFits_of_ok {p : Params} (h : p.ok = true) : p.countFits = true := by
  simp only [Params.ok, Bool.and_eq_true] at h
  tauto

/-- The delay count of admitted parameters fits 16 bits. -/
theorem delayCount_le_of_ok {p : Params} (h : p.ok = true) :
    delayCount p.tUnitNs p.fCpuHz p.cyclesPerIter ≤ 0xFFFF :=
  (delayCount_le_iff (one_le_cyclesPerIter_of_ok h) (by decide)).mpr (of_decide_eq_true (countFits_of_ok h))

theorem toNat_calibrate (c : Config) :
    (calibrate c).toNat = delayCount c.params.tUnitNs c.params.fCpuHz c.params.cyclesPerIter := by
  have hfits := delayCount_le_of_ok c.ok
  rw [calibrate, BitVec.toNat_ofNat, Nat.mod_eq_of_lt (by omega)]

theorem ofParams?_eq_none {p : Params} (h : ¬ p.ok = true) : Config.ofParams? p = none := dif_neg h

/-- Settles O22: the calibrated count is the delay count, unshortened, which is the least by `delayCount_le_iff`. -/
theorem calibratedCountIsTheLeastThatLasts : Obligations.CalibratedCountIsTheLeastThatLasts := by
  refine ⟨State.resetEngine_dlyCount, fun p hlarge => ?_, fun c => ?_⟩
  · exact ofParams?_eq_none fun hok => absurd (delayCount_le_of_ok hok) (by omega)
  · have hcycles := one_le_cyclesPerIter_of_ok c.ok
    have hpos := one_le_delayCount c.params.tUnitNs c.params.fCpuHz c.params.cyclesPerIter
    simp only [toNat_calibrate]
    exact ⟨hpos, (delayCount_le_iff hcycles hpos).mp le_rfl, fun m hm => (delayCount_le_iff hcycles hm).mpr⟩

/-- Settles O21: its one sub-step leaves the state as it is, then the completion. -/
theorem delayUnitChangesNoLine : Obligations.DelayUnitChangesNoLine := by
  refine ⟨rfl, rejectedUnconfigured rfl, fun s d0 d1 d2 hready => ?_⟩
  exact runOp_completes (exec_of_programOf rfl) (hready.accepts .delayUnit) (ds := [d1]) rfl rfl

end Sys2Proof.Machine

namespace Sys2Proof.Machine

/-! What a stretch of a micro-program says of the line registers, wherever they stood and whatever the sensor does. -/

/-- The line registers as far as they are known; `none` is a register that may hold either value. -/
structure KnownLines where
  clkDir : Option Dir
  clkLvl : Option Bool
  dataDir : Option Dir
  dataPue : Option Bool
  deriving DecidableEq

/-- Nothing known. -/
def KnownLines.nothing : KnownLines := ⟨none, none, none, none⟩

/-- CLK low and DATA RELEASED, CLK's direction not known (R150). -/
def KnownLines.idle : KnownLines := ⟨none, some false, some .inp, some true⟩

/-- The line registers are as known. -/
structure KnownLines.Holds (κ : KnownLines) (l : Lines) : Prop where
  clkDir : ∀ d ∈ κ.clkDir, l.clkDir = d
  clkLvl : ∀ b ∈ κ.clkLvl, l.clkLvl = b
  dataDir : ∀ d ∈ κ.dataDir, l.dataDir = d
  dataPue : ∀ b ∈ κ.dataPue, l.dataPue = b

/-- What is known after a sub-step (40_line_controller.md); a command bit leaves DATA to the command. -/
def KnownLines.after (κ : KnownLines) : Act → KnownLines
  | .clkLevel b => { κ with clkLvl := some b }
  | .ackClkLow => { κ with clkLvl := some false }
  | .clkConfigure => { κ with clkDir := some .out }
  | .dataPueOff => { κ with dataPue := some false }
  | .dataConfigure | .dataPueOn => { κ with dataPue := some true }
  | .dataDirOut => { κ with dataDir := some .out }
  | .dataDirIn => { κ with dataDir := some .inp }
  | .bitFirst | .bitSecond => { κ with dataDir := none, dataPue := none }
  | .delay | .sample | .pollReady | .pollConversion => κ

/-- What is known after the sub-steps of a list. -/
def KnownLines.afterAll (κ : KnownLines) (l : List SubStep) : KnownLines := l.foldl (fun κ st => κ.after st.act) κ

theorem KnownLines.holds_nothing (l : Lines) : KnownLines.nothing.Holds l := by
  constructor <;> simp [KnownLines.nothing]

/-- What is known after a sub-step holds after it. -/
theorem perform_known {κ : KnownLines} {a : Act} {s t : State} {fl : Flow} (h : perform a s = .ok (t, fl))
    (hκ : κ.Holds s.lines) : (κ.after a).Holds t.lines := by
  obtain ⟨hcd, hcl, hdd, hdp⟩ := hκ
  cases a <;> simp only [perform] at h
  case bitFirst | bitSecond =>
    split at h <;> cases h
    split <;> constructor <;> simp_all [KnownLines.after, setDataDir, setDataPue]
  case sample =>
    obtain ⟨n, hn⟩ := sample_state s
    cases h
    rw [hn]
    exact ⟨hcd, hcl, hdd, hdp⟩
  case ackClkLow =>
    obtain ⟨n, hn⟩ := readHeldBit_state s.status.ackBit s
    rw [hn] at h
    cases h
    exact ⟨hcd, by simp [KnownLines.after, setClkLvl], hdd, hdp⟩
  case pollReady | pollConversion =>
    obtain ⟨_, _, _, rfl⟩ := pollOnce_frame h
    exact ⟨hcd, hcl, hdd, hdp⟩
  all_goals
    cases h
    constructor <;> simp_all [KnownLines.after, setDataDir, setDataPue, setClkLvl, setClkOut, setClkCfg, setDataCfg]

theorem assignAll_lines {us : List Upd} {s t : State} (h : assignAll us s = .ok t) : t.lines = s.lines := by
  obtain ⟨_, _, _, _, _, _, _, rfl⟩ := assignAll_frame h
  rfl

/-- What is known after a stretch of sub-steps holds after it. -/
theorem runList_known {κ : KnownLines} {l : List SubStep} {ds : List Drive} {s t : State}
    (h : runList l ds s = some t) (hκ : κ.Holds s.lines) : (κ.afterAll l).Holds t.lines := by
  induction l generalizing κ ds s with
  | nil => cases ds <;> cases h; exact hκ
  | cons st sts ih =>
    cases ds with
    | nil => cases h
    | cons d ds =>
      simp only [runList] at h
      split at h
      · cases h
      · rename_i s1 hpre
        split at h
        · rename_i hact
          exact ih h (perform_known hact (by rw [assignAll_lines hpre]; exact hκ))
        · cases h

/-! A stretch that cannot raise is run to its end. -/

/-- The sub-steps that may raise or, as a poll, stay at their index (R142, R145, R146). -/
def Act.branches : Act → Bool
  | .ackClkLow | .pollReady | .pollConversion => true
  | _ => false

theorem perform_advances {a : Act} {s t : State} {fl : Flow} (h : perform a s = .ok (t, fl))
    (ha : a.branches = false) : fl = .advance := by
  obtain hfl | ⟨-, rfl | rfl⟩ | ⟨_, -, -, rfl | rfl | rfl⟩ := perform_flow h
  · exact hfl
  all_goals cases ha

/-- A stretch whose sub-steps read what has been written goes on to its end. -/
theorem runList_answers {w : List ScratchReg} {o : Option Act} {l rest : List SubStep} {ds : List Drive} {s : State}
    (hsound : soundFrom w o (l ++ rest) = true) (hl : ∀ st ∈ l, st.act.branches = false)
    (hw : ∀ r ∈ w, s.scratch.holds r = true) (hlen : ds.length = l.length) : ∃ t, runList l ds s = some t := by
  induction l generalizing w o ds s with
  | nil =>
    obtain rfl := List.length_eq_zero_iff.mp hlen
    exact ⟨s, rfl⟩
  | cons st sts ih =>
    obtain ⟨d, ds, rfl⟩ := List.exists_cons_of_length_eq_add_one hlen
    rw [List.cons_append, soundFrom, Bool.and_eq_true, Bool.and_eq_true] at hsound
    obtain ⟨⟨-, hst⟩, hrest⟩ := hsound
    simp only [subStepSound, Bool.and_eq_true, List.all_eq_true, decide_eq_true_eq] at hst
    obtain ⟨⟨⟨hreads, hactReads⟩, -⟩, -⟩ := hst
    obtain ⟨s1, hpre⟩ := assignAll_answers (s := setDrive d s) hreads hw
    have hheld : ∀ r ∈ w ++ st.pre.flatMap firstWrites, s1.scratch.holds r = true := fun r hr =>
      assignAll_holds hpre ((List.mem_append.mp hr).symm.imp_right (hw r))
    obtain ⟨s2, fl, hact⟩ := perform_answers fun r hr => hheld r (hactReads r hr)
    obtain rfl := perform_advances hact (hl st (by simp))
    obtain ⟨t, ht⟩ := ih hrest (fun st' h' => hl st' (by simp [h'])) (s := s2)
      (fun r hr => (perform_effect hact).holds (hheld r hr)) (by simpa using hlen)
    exact ⟨t, by simp only [runList, hpre, hact, ht]⟩

/-- Where every drive is the same, so is the last. -/
theorem runList_sensDrv {l : List SubStep} {ds : List Drive} {s t : State} {d : Drive}
    (h : runList l ds s = some t) (hs : s.env.sensDrv = d) (hds : ∀ d' ∈ ds, d' = d) : t.env.sensDrv = d := by
  induction l generalizing ds s with
  | nil => cases ds <;> cases h; exact hs
  | cons st sts ih =>
    cases ds with
    | nil => cases h
    | cons d' ds =>
      simp only [runList] at h
      split at h
      · cases h
      · rename_i s1 hpre
        split at h
        · rename_i hact
          obtain ⟨_, _, _, _, _, _, _, rfl⟩ := assignAll_frame hpre
          obtain ⟨_, _, _, _, _, _, rfl⟩ := perform_frame hact
          exact ih h (hds d' (by simp)) fun d'' h'' => hds d'' (by simp [h''])
        · cases h

/-- A run of an accepted operation up to a place before which nothing branches: it is answered, and the line registers
are as known. -/
theorem runOp_known {op : Instr} {p : MicroProgram} (hp : programOf op = some p) {s : State} (hs : Accepts op s)
    {d : Drive} {ds : List Drive} {l rest : List SubStep} (hl : p.steps = l ++ rest)
    (hadvance : ∀ st ∈ l, st.act.branches = false) (hlen : ds.length = l.length) {κ : KnownLines}
    (hκ : κ.Holds s.lines) :
    ∃ t, runOp op (d :: ds) s = .next t ∧ (κ.afterAll l).Holds t.lines ∧
      ((∀ d' ∈ d :: ds, d' = .release) → t.env.sensDrv = .release) := by
  obtain ⟨t, ht⟩ :=
    runList_answers (s := issue op (setDrive d s)) (hl ▸ programOf_soundFrom hp) hadvance (by simp) hlen
  have hknown : (κ.afterAll l).Holds t.lines := runList_known ht hκ
  refine ⟨_, runOp_subSteps (exec_of_programOf hp) hs hl ht, hknown, fun hrel => ?_⟩
  have hdrv : t.env.sensDrv = .release :=
    runList_sensDrv ht (hrel d List.mem_cons_self) fun d' h' => hrel d' (List.mem_cons_of_mem d h')
  exact hdrv

theorem start_advances : ∀ st ∈ startSeq, st.act.branches = false := by decide

/-- Settles O24: what is known of the lines after each primitive, from idle on, is a computation. -/
theorem startHasTheStartShape : Obligations.StartHasTheStartShape := by
  intro s hready ⟨hclk, hlvl, hdir, hpue⟩ x hx
  have hidle : KnownLines.Holds ⟨some .out, some false, some .inp, some true⟩ s.lines := by
    constructor <;> simp [*]
  have hpoint : 1 ≤ x.1 ∧ x.1 - 1 ≤ startSeq.length ∧
      KnownLines.afterAll ⟨some .out, some false, some .inp, some true⟩ (startSeq.take (x.1 - 1)) =
        ⟨some .out, some x.2.1, some x.2.2.1, some x.2.2.2⟩ ∧ x.2.2.2 = decide (x.2.2.1 = .inp) := by
    revert x; decide
  obtain ⟨n, hn⟩ : ∃ n, x.1 = n + 1 := Nat.exists_eq_add_one.mpr hpoint.1
  obtain ⟨-, hle, hshape, hlevel⟩ := hpoint
  rw [hn, Nat.add_sub_cancel] at hle hshape
  obtain ⟨t, hrun, hknown, hrel⟩ := runOp_known (op := .start) rfl (hready.accepts _) (d := .release)
    (ds := List.replicate n .release) (List.take_append_drop n startSeq).symm
    (fun st hst => start_advances st (List.mem_of_mem_take hst)) (by simp [hle]) hidle
  have hdrv : t.env.sensDrv = .release := hrel fun d hd => List.eq_of_mem_replicate (n := n + 1) hd
  rw [hshape] at hknown
  have hclk := hknown.clkDir _ rfl
  have hdir := hknown.dataDir _ rfl
  have hpue := hknown.dataPue _ rfl
  refine ⟨t, by rw [hn]; exact hrun, ?_, hdir, hpue, ?_⟩
  · rw [busClk, if_pos hclk, hknown.clkLvl _ rfl]
  · cases hx2 : x.2.2.1 with
    | out => rw [busData, if_pos (.inl (hdir.trans hx2)), hlevel, hx2]; rfl
    | inp =>
      rw [hx2] at hdir hlevel
      rw [busData_released ⟨hdir, hpue.trans hlevel⟩, hlevel, hdrv]
      rfl

end Sys2Proof.Machine

namespace Sys2Proof.Machine

/-- From DATA RELEASED on, the lines from the end of the 8th bit of a byte read to its last sub-step (R147, R149). -/
theorem readByteSeq_known_after_bits : ∀ (sup : Bool) (n : Nat), n < 50 → 40 ≤ n →
    n ≤ (if sup then 47 else 49) →
    KnownLines.afterAll ⟨none, none, some .inp, some true⟩ ((readByteSeq sup).take n) =
      ⟨none, some (decide (if sup then n = 42 ∨ n = 43 else n = 44 ∨ n = 45)),
        some (if sup = false ∧ 42 ≤ n ∧ n ≤ 46 then .out else .inp),
        some (decide (¬ (sup = false ∧ 41 ≤ n ∧ n ≤ 47)))⟩ := by
  decide

theorem readByteSeq_length (sup : Bool) : (readByteSeq sup).length = if sup then 47 else 49 := by
  cases sup <;> rfl

theorem readByte_advances (sup : Bool) : ∀ st ∈ readByteSeq sup, st.act.branches = false := by
  cases sup <;> decide

/-- Settles O31: what is known of the lines at each sub-step after the bits. -/
theorem byteReadAcknowledgesForOneClockPulse : Obligations.ByteReadAcknowledgesForOneClockPulse := by
  intro sup s ds n hready ⟨hdir, hpue⟩ hlen hge hle
  obtain ⟨d, ds, rfl⟩ := List.exists_cons_of_length_eq_add_one hlen
  have hle' : n ≤ (readByteSeq sup).length := by rwa [readByteSeq_length]
  have hreleased : KnownLines.Holds ⟨none, none, some .inp, some true⟩ s.lines := by
    constructor <;> simp [*]
  obtain ⟨t, hrun, hknown, -⟩ := runOp_known (op := .readByte sup) rfl (hready.accepts _) (d := d) (ds := ds)
    (List.take_append_drop n (readByteSeq sup)).symm
    (fun st hst => readByte_advances sup st (List.mem_of_mem_take hst)) (by simpa [hle'] using hlen) hreleased
  rw [readByteSeq_known_after_bits sup n (by split at hle <;> omega) hge hle] at hknown
  obtain ⟨-, hclk, hdir, hpue⟩ := hknown
  refine ⟨t, hrun, ?_, fun hout => ?_, ?_⟩
  · rw [hdir _ rfl]; simp
  · rw [hdir _ rfl] at hout
    rw [hpue _ rfl]
    simp at hout
    simp [hout]
    omega
  · rw [hclk _ rfl, decide_eq_true_iff]

/-- Settles O39: the micro-programs, whatever the command byte, are lists of fixed length and make. -/
theorem microProgramCounts : Obligations.MicroProgramCounts := by
  intro c
  and_intros <;> rfl
end Sys2Proof.Machine

namespace Sys2Proof.Machine

/-! Where a micro-program completes, its lines are idle. -/

/-- The lines are known to be idle at the end of the sub-steps, and after each sub-step that may raise (R150). -/
def endsIdle : KnownLines → List SubStep → Bool
  | κ, [] => decide (κ = .idle)
  | κ, st :: sts => (!st.act.branches || decide (κ.after st.act = .idle)) && endsIdle (κ.after st.act) sts

theorem endsIdle_end {κ : KnownLines} {l : List SubStep} (h : endsIdle κ l = true) : κ.afterAll l = .idle := by
  induction l generalizing κ with
  | nil => exact of_decide_eq_true h
  | cons st sts ih => exact ih (Bool.and_eq_true_iff.mp h).2

theorem endsIdle_branch {κ : KnownLines} {l : List SubStep} (h : endsIdle κ l = true) {k : Nat} {st : SubStep}
    (hk : l[k]? = some st) (hst : st.act.branches = true) : κ.afterAll (l.take (k + 1)) = .idle := by
  induction l generalizing κ k with
  | nil => cases hk
  | cons a l ih =>
    obtain ⟨hhead, htail⟩ := Bool.and_eq_true_iff.mp h
    cases k with
    | zero =>
      cases hk
      simpa [hst, KnownLines.afterAll] using hhead
    | succ k => exact ih htail hk

/-- The transaction operations (42_transaction.md, 43_measurement.md), and the bytes sent as one (R84). -/
def isTransaction (i : Instr) : Prop := i = .start ∨ (∃ b, i = .readByte b) ∨ ∃ c, commandOf i = some c

theorem endsIdle_append {κ : KnownLines} {l l' : List SubStep} (h : endsIdle κ l = true)
    (h' : endsIdle .idle l' = true) : endsIdle κ (l ++ l') = true := by
  induction l generalizing κ with
  | nil =>
    obtain rfl : κ = .idle := of_decide_eq_true h
    exact h'
  | cons st sts ih =>
    obtain ⟨hhead, htail⟩ := Bool.and_eq_true_iff.mp h
    exact Bool.and_eq_true_iff.mpr ⟨hhead, ih htail⟩

theorem programOf_endsIdle {op : Instr} {p : MicroProgram} (hp : programOf op = some p) (hop : isTransaction op) :
    endsIdle .nothing p.steps = true := by
  cases op <;> cases hp
  case readByte sup => cases sup <;> rfl
  case start | sendCmd => rfl
  case measure c =>
    have hsend : endsIdle .nothing (sendCmdSeq c) = true := rfl
    exact endsIdle_append (endsIdle_append (endsIdle_append hsend rfl) rfl) rfl
  all_goals simp [isTransaction, commandOf] at hop

theorem afterAll_take_succ {κ : KnownLines} {l : List SubStep} {k : Nat} {st : SubStep} (h : l[k]? = some st) :
    κ.afterAll (l.take (k + 1)) = (κ.afterAll (l.take k)).after st.act := by
  simp [KnownLines.afterAll, List.take_add_one, h]

/-- What the sequencer's place in a micro-program says of the lines: a raise has left them idle. -/
def linesReady (p : MicroProgram) (k : Nat) (l : Lines) : Stage → Prop
  | .raised _ => KnownLines.idle.Holds l
  | _ => (KnownLines.nothing.afterAll (p.steps.take k)).Holds l

/-- Both lines are configured, and the engine is quiet, or runs `op` with the lines where it has brought them. -/
def ReadyOrRunning (op : Instr) (p : MicroProgram) (s : State) : Prop :=
  (s.status.clkCfg = true ∧ s.status.dataCfg = true) ∧
    (Quiet s ∨ ∃ k stage, s.seq = .run op k stage ∧ linesReady p k s.lines stage)

section
variable {op : Instr} {p : MicroProgram} {k : Nat} {stage : Stage} {sub : SubStep} {s s1 s2 : State} {fl : Flow}

theorem linesReady_known {l : Lines} (h : linesReady p k l stage) (hstage : ∀ o, stage ≠ .raised o) :
    (KnownLines.nothing.afterAll (p.steps.take k)).Holds l := by
  cases stage with
  | raised o => exact absurd rfl (hstage o)
  | _ => exact h

/-- A sub-step of a transaction operation brings the lines where the next place says. -/
theorem linesReady_takes (hidle : endsIdle .nothing p.steps = true) (hready : linesReady p k s.lines stage)
    (hstage : ∀ o, stage ≠ .raised o) (hsub : p.steps[k]? = some sub) (hlines : s1.lines = s.lines)
    (hact : perform sub.act s1 = .ok (s2, fl)) :
    ∃ k' stage', nextSeq op k fl = .run op k' stage' ∧ linesReady p k' s2.lines stage' := by
  have hbefore : (KnownLines.nothing.afterAll (p.steps.take k)).Holds s1.lines :=
    hlines ▸ linesReady_known hready hstage
  have hafter := perform_known hact hbefore
  obtain rfl | ⟨rfl, hpoll⟩ | ⟨o, rfl, -, hraise⟩ := perform_flow hact
  · exact ⟨k + 1, .fresh, rfl, by rwa [← afterAll_take_succ hsub] at hafter⟩
  · exact ⟨k, .looping, rfl, by rcases hpoll with hpoll | hpoll <;> rwa [hpoll] at hafter⟩
  · have hbranch : sub.act.branches = true := by rcases hraise with h | h | h <;> rw [h] <;> rfl
    rw [← afterAll_take_succ hsub, endsIdle_branch hidle hsub hbranch] at hafter
    exact ⟨k, .raised o, rfl, hafter⟩

/-- Every step keeps this, and leaves the bus idle where it completes the operation. -/
theorem ReadyOrRunning.step (hidle : endsIdle .nothing p.steps = true) {t : State} (hs : ReadyOrRunning op p s)
    (hflags : t.status.clkCfg = s.status.clkCfg ∧ t.status.dataCfg = s.status.dataCfg)
    (h : operate op p s = .next t) :
    ReadyOrRunning op p t ∧ (t.seq = .idle → KnownLines.idle.Holds t.lines) := by
  obtain ⟨hconf, hplace⟩ := hs
  have hconf' : t.status.clkCfg = true ∧ t.status.dataCfg = true := by rwa [hflags.1, hflags.2]
  obtain hquiet | ⟨k, stage, hseq, hready⟩ := hplace
  · have haccepts : Accepts op s := ⟨hquiet, fun _ => hconf⟩
    rw [operate, hquiet.1, haccepts.offer_eq] at h
    cases h
    exact ⟨⟨hconf', .inr ⟨0, .fresh, rfl, KnownLines.holds_nothing _⟩⟩, fun hseq => by cases hseq⟩
  · rcases operate_cases h with ⟨hs, -⟩ | ⟨_, _, _, hs, hne, -⟩ | ⟨_, _, hs, rfl⟩ |
      ⟨_, _, _, _, _, _, hs, hstage, hsub, hpre, hact, rfl⟩ | ⟨_, _, hs, hstage, hfinal, rfl⟩ <;>
      rw [hseq] at hs <;> cases hs
    · exact absurd rfl hne
    · exact ⟨⟨hconf', .inl ⟨rfl, rfl⟩⟩, fun _ => hready⟩
    · obtain ⟨k', stage', hnext, hready'⟩ :=
        linesReady_takes (op := op) hidle hready hstage hsub (assignAll_lines hpre) hact
      exact ⟨⟨hconf', .inr ⟨k', stage', hnext, hready'⟩⟩, fun hs => by rw [hnext] at hs; cases hs⟩
    · have hend := linesReady_known hready hstage
      rw [List.take_length, endsIdle_end hidle, ← assignAll_lines hfinal] at hend
      exact ⟨⟨hconf', .inl ⟨rfl, rfl⟩⟩, fun _ => hend⟩

end

/-- No transaction operation writes the configuration flags. -/
theorem exec_keeps_config {i : Instr} (hi : isTransaction i) {s t : State} (h : exec i s = .next t) :
    t.status.clkCfg = s.status.clkCfg ∧ t.status.dataCfg = s.status.dataCfg := by
  constructor
  · refine exec_kept (r := .clkCfg) h ?_
    cases i <;> simp [isTransaction, commandOf, instrWrites] at hi ⊢
  · refine exec_kept (r := .dataCfg) h ?_
    cases i <;> simp [isTransaction, commandOf, instrWrites] at hi ⊢

/-- Settles O33: by induction over the run, the place in the micro-program says where the lines stand. -/
theorem transactionsLeaveTheBusIdle : Obligations.TransactionsLeaveTheBusIdle := by
  intro i s t ds hi hready hne hrun hend
  obtain ⟨op, p, hp, hown, hbyte, hcmd, -, -, hexec⟩ := exec_eq_operate i
  have hop : isTransaction op := by
    obtain rfl | ⟨b, rfl⟩ | ⟨c, hc⟩ := hi
    · exact .inl (hown (by simp [programOf]))
    · exact .inr (.inl ⟨b, hown (by simp [programOf])⟩)
    · exact .inr (.inr ⟨c, hcmd.trans hc⟩)
  have hidle := programOf_endsIdle hp hop
  have hs : ReadyOrRunning op p s := ⟨hready.2, .inl hready.1⟩
  clear hready
  induction ds generalizing s with
  | nil => exact absurd rfl hne
  | cons d ds ih =>
    simp only [runOp] at hrun
    split at hrun
    · rename_i s1 hstep
      have hd : ReadyOrRunning op p (setDrive d s) := hs
      obtain ⟨hs1, hlines⟩ := hd.step hidle (exec_keeps_config hi hstep) ((hexec _).symm.trans hstep)
      cases ds with
      | nil =>
        cases hrun
        obtain ⟨-, hclk, hdir, hpue⟩ := hlines hend
        exact ⟨hclk _ rfl, hdir _ rfl, hpue _ rfl⟩
      | cons d' ds => exact ih s1 (List.cons_ne_nil d' ds) hrun hs1
    · cases hrun
    · cases hrun
end Sys2Proof.Machine

namespace Sys2Proof.Machine

/-! Stretches of sub-steps that do not look at DATA. -/

/-- A sub-step that takes a sample (R107, R145, R146). -/
def Act.samples : Act → Bool
  | .sample | .pollReady | .pollConversion => true
  | _ => false

/-- The sub-steps of a list, each of which goes on to the next, the sensor's drive as it stands. -/
def runBlind : List SubStep → State → Option State
  | [], s => some s
  | st :: sts, s =>
    match assignAll st.pre s with
    | .error _ => none
    | .ok s1 =>
      match perform st.act s1 with
      | .ok (s2, .advance) => runBlind sts s2
      | _ => none

theorem assign_setDrive (u : Upd) (d : Drive) (s : State) :
    assign u (setDrive d s) = (assign u s).map (setDrive d) := by
  cases u <;>
    simp only [assign, getCmd, getBitCnt, getAcc, lastSample, setDrive_scratch, setDrive_status, setDrive_rdata]
  case shiftCmd => cases s.scratch.cmd <;> rfl
  case incBitCnt => cases s.scratch.bitCnt <;> rfl
  case ackFromSample => cases s.status.smpBit <;> rfl
  case shiftInSample => cases s.scratch.acc <;> cases s.status.smpBit <;> rfl
  case rdataFromAcc => cases s.scratch.acc <;> rfl
  case resultFromBytes => cases s.scratch.acc <;> cases s.rdata <;> rfl
  all_goals rfl

theorem assignAll_setDrive {us : List Upd} {s t : State} (h : assignAll us s = .ok t) (d : Drive) :
    assignAll us (setDrive d s) = .ok (setDrive d t) := by
  induction us generalizing s with
  | nil => cases h; rfl
  | cons u us ih =>
    simp only [assignAll, assign_setDrive] at h ⊢
    cases hu : assign u s with
    | ok s1 => rw [hu] at h; exact ih h
    | error f => rw [hu] at h; cases h

theorem perform_setDrive {a : Act} (ha : a.samples = false) (d : Drive) (s : State) :
    perform a (setDrive d s) = (perform a s).map (Prod.map (setDrive d) id) := by
  cases a <;> simp only [perform, getCmd, setDrive_scratch, setDrive_status]
  case sample | pollReady | pollConversion => cases ha
  case bitFirst | bitSecond => cases s.scratch.cmd with
    | none => rfl
    | some c => simp only; split <;> rfl
  case ackClkLow => cases s.status.ackBit <;> rfl
  all_goals rfl

/-- Where no sub-step takes a sample, a run differs from one without drives by the drive it ends with. -/
theorem runList_of_runBlind {l : List SubStep} {ds : List Drive} {s t : State}
    (hl : ∀ st ∈ l, st.act.samples = false) (hlen : ds.length = l.length) (h : runBlind l s = some t)
    (d0 : Drive) :
    ∃ d, runList l ds (setDrive d0 s) = some (setDrive d t) := by
  induction l generalizing s ds d0 with
  | nil =>
    obtain rfl := List.length_eq_zero_iff.mp hlen
    cases h
    exact ⟨d0, rfl⟩
  | cons st sts ih =>
    obtain ⟨d, ds, rfl⟩ := List.exists_cons_of_length_eq_add_one hlen
    simp only [runBlind] at h
    split at h
    · cases h
    · rename_i s1 hpre
      split at h
      · rename_i s2 hact
        obtain ⟨d', hd'⟩ := ih (fun st' h' => hl st' (List.mem_cons_of_mem st h')) (Nat.succ.inj hlen) h d
        have hpre' : assignAll st.pre (setDrive d (setDrive d0 s)) = .ok (setDrive d s1) := assignAll_setDrive hpre d
        have hact' : perform st.act (setDrive d s1) = .ok (setDrive d s2, .advance) := by
          rw [perform_setDrive (hl st List.mem_cons_self), hact]; rfl
        exact ⟨d', by simp only [runList, hpre', hact', hd']⟩
      · cases h

theorem runBlind_append {l l' : List SubStep} {s t : State} (h : runBlind l s = some t) :
    runBlind (l ++ l') s = runBlind l' t := by
  induction l generalizing s with
  | nil => cases h; rfl
  | cons st sts ih =>
    simp only [runBlind, List.cons_append] at h ⊢
    split at h
    · cases h
    · split at h
      · exact ih h
      · cases h

theorem assignAll_append {us vs : List Upd} {s t : State} (h : assignAll us s = .ok t) :
    assignAll (us ++ vs) s = assignAll vs t := by
  induction us generalizing s with
  | nil => cases h; rfl
  | cons u us ih =>
    simp only [assignAll, List.cons_append] at h ⊢
    split at h
    · exact ih h
    · cases h

/-- Assignments that ride on a sequence are done before it (R135). -/
theorem runBlind_riding {us : List Upd} {l : List SubStep} {s t : State} (h : assignAll us s = .ok t)
    (hl : l ≠ []) :
    runBlind (riding us l) s = runBlind l t := by
  cases l with
  | nil => exact absurd rfl hl
  | cons st sts => simp only [riding, runBlind, assignAll_append h]

/-- Assignments that ride on a sequence are done before it, the sensor's drive set or not. -/
theorem runList_riding {us : List Upd} {l : List SubStep} {ds : List Drive} {s t : State}
    (h : assignAll us s = .ok t) (hl : l ≠ []) : runList (riding us l) ds s = runList l ds t := by
  cases l with
  | nil => exact absurd rfl hl
  | cons st sts => cases ds with
    | nil => rfl
    | cons d ds => simp only [riding, runList, assignAll_append (assignAll_setDrive h d)]

/-! START. -/

theorem startSeq_samples : ∀ st ∈ startSeq, st.act.samples = false := by decide

/-- The start condition leaves the lines idle (R136, R150). -/
theorem runBlind_startSeq (s : State) : runBlind startSeq s = some (s.withLines (idleLines s)) := rfl

/-- A run of an accepted operation over a stretch that takes no sample. -/
theorem runOp_of_runBlind {i op : Instr} {p : MicroProgram} (hexec : ∀ s, exec i s = operate op p s) {s t : State}
    (hs : Accepts op s) {ds : List Drive} {l rest : List SubStep} (hsteps : p.steps = l ++ rest)
    (hl : ∀ st ∈ l, st.act.samples = false) (hlen : ds.length = l.length + 1)
    (h : runBlind l (issue op s) = some t) :
    ∃ d, runOp i ds s = .next ((setDrive d t).withSeq (.run op l.length .fresh)) := by
  obtain ⟨d0, ds, rfl⟩ := List.exists_cons_of_length_eq_add_one hlen
  obtain ⟨d, hrun⟩ := runList_of_runBlind hl (Nat.succ.inj hlen) h d0
  exact ⟨d, runOp_subSteps hexec hs hsteps hrun⟩

/-- The completion of an operation that stands at its end. -/
theorem runOp_ends {i op : Instr} {p : MicroProgram} (hexec : ∀ s, exec i s = operate op p s) {s t : State}
    {d : Drive} (hseq : s.seq = .run op p.steps.length .fresh) (hfinal : assignAll p.final (setDrive d s) = .ok t) :
    runOp i [d] s = .next (complete .ok t) :=
  runOp_cons ((hexec _).trans (operate_ends hseq hfinal))

/-- Settles O23: its sub-steps take no sample, so the drives do not matter. -/
theorem startLeavesTheIdleBus : Obligations.StartLeavesTheIdleBus := by
  refine ⟨rfl, rejectedUnconfigured rfl, fun s ds d hready hlen => ?_⟩
  have hexec := exec_of_programOf (op := .start) rfl
  obtain ⟨d', hrun⟩ := runOp_of_runBlind hexec (hready.accepts .start) (List.append_nil startSeq).symm
    startSeq_samples hlen (runBlind_startSeq _)
  exact (runOp_append hrun).trans (runOp_ends hexec rfl rfl)

end Sys2Proof.Machine

namespace Sys2Proof.Machine

/-! The command's bits (R141). -/

/-- What rides on the `j`-th bit of a command: the first one loads CMD. -/
def bitUpds (c : Byte) : Nat → List Upd
  | 0 => [.loadCmd c, .clearBitCnt]
  | _ + 1 => afterBit

/-- The first `j` bits of a command. -/
def bitsBefore (c : Byte) : Nat → List SubStep
  | 0 => []
  | j + 1 => bitsBefore c j ++ riding (bitUpds c j) bitSeq

/-- A bit's part before its clock pulse. -/
def bitSetup : List SubStep := plain [.bitFirst, .bitSecond] ++ mDelay

theorem commandBits_eq (c : Byte) : commandBits c = bitsBefore c 8 := rfl

theorem riding_bitSeq (us : List Upd) :
    riding us bitSeq = riding us bitSetup ++ (mClkHigh ++ mDelay ++ mClkLow) := rfl

theorem bitsBefore_prefix (c : Byte) {j n : Nat} (h : j ≤ n) : bitsBefore c j <+: bitsBefore c n := by
  induction n, h using Nat.le_induction with
  | base => exact List.prefix_rfl
  | succ n _ ih => exact ih.trans (List.prefix_append _ _)

theorem bitsBefore_length (c : Byte) (j : Nat) : (bitsBefore c j).length = 6 * j := by
  induction j with
  | zero => rfl
  | succ j ih =>
    have hbit : (riding (bitUpds c j) bitSeq).length = 6 := rfl
    rw [bitsBefore, List.length_append, ih, hbit]
    rfl

/-- CMD and BITCNT with `j` bits sent, the assignments after the last of them still to be done. -/
def bitsSent (c : Byte) (sc : Scratch) : Nat → Prop
  | 0 => True
  | j + 1 => sc.cmd = some (c <<< j) ∧ sc.bitCnt.isSome = true

/-- The assignments that ride on the `j`-th bit bring the command's bit `7 - j` to the top of CMD. -/
theorem assignAll_bitUpds {c : Byte} {j : Nat} {s : State} (h : bitsSent c s.scratch j) :
    ∃ sc, assignAll (bitUpds c j) s = .ok (s.withScratch sc) ∧ bitsSent c sc (j + 1) := by
  cases j with
  | zero => exact ⟨{ s.scratch with cmd := some c, bitCnt := some 0 }, rfl, by simp [bitsSent]⟩
  | succ j =>
    obtain ⟨hcmd, hcnt⟩ := h
    obtain ⟨n, hn⟩ := Option.isSome_iff_exists.mp hcnt
    refine ⟨{ s.scratch with cmd := some (c <<< (j + 1)), bitCnt := some (n + 1) }, ?_, rfl, rfl⟩
    simp [bitUpds, afterBit, assignAll, assign, getCmd, getBitCnt, setCmd, setBitCnt, hcmd, hn, BitVec.shiftLeft_add,
      State.withScratch]

/-- The lines with a bit on DATA: RELEASED for 1, DRIVEN_LOW for 0. -/
def presenting (b : Bool) (l : Lines) : Lines := { l with dataDir := if b then .inp else .out, dataPue := b }

theorem runBlind_bitSetup {c : Byte} {s : State} (h : s.scratch.cmd = some c) :
    runBlind bitSetup s = some (s.withLines (presenting (c.getLsbD 7) s.lines)) := by
  cases hb : c.getLsbD 7
  all_goals
    simp only [bitSetup, mDelay, plain, List.map_cons, List.map_nil, List.cons_append, List.nil_append, runBlind,
      assignAll, perform, getCmd, h, hb, setDataDir, setDataPue, State.withLines_scratch, if_true, Bool.false_eq_true,
      if_false]
    rfl

theorem getLsbD_shiftLeft_top (c : Byte) {j : Nat} (hj : j < 8) : (c <<< j).getLsbD 7 = c.getLsbD (7 - j) := by
  have h : ¬ 7 < j := by omega
  simp only [BitVec.getLsbD_shiftLeft, h]; simp

theorem runBlind_riding_bitSetup {c : Byte} {j : Nat} (hj : j < 8) {s : State} (h : bitsSent c s.scratch j) :
    ∃ sc, runBlind (riding (bitUpds c j) bitSetup) s =
        some ((s.withLines (presenting (c.getLsbD (7 - j)) s.lines)).withScratch sc) ∧ bitsSent c sc (j + 1) := by
  obtain ⟨sc, hpre, hsent⟩ := assignAll_bitUpds h
  refine ⟨sc, ?_, hsent⟩
  rw [runBlind_riding hpre (by decide), runBlind_bitSetup hsent.1, getLsbD_shiftLeft_top c hj]
  rfl

theorem runBlind_bitsBefore (c : Byte) {j : Nat} (hj : j ≤ 8) {s : State} (hclk : s.lines.clkLvl = false) :
    ∃ l sc, runBlind (bitsBefore c j) s = some ((s.withLines l).withScratch sc) ∧ l.clkDir = s.lines.clkDir ∧
      l.clkLvl = false ∧ bitsSent c sc j := by
  induction j with
  | zero => exact ⟨s.lines, s.scratch, rfl, rfl, hclk, trivial⟩
  | succ j ih =>
    obtain ⟨l, sc, hbits, hdir, hlvl, hsent⟩ := ih (by omega)
    obtain ⟨sc', hbit, hsent'⟩ := runBlind_riding_bitSetup (s := (s.withLines l).withScratch sc) (by omega) hsent
    refine ⟨{ presenting (c.getLsbD (7 - j)) l with clkLvl := false }, sc', ?_, hdir, rfl, hsent'⟩
    rw [bitsBefore, runBlind_append hbits, riding_bitSeq, runBlind_append hbit]
    rfl

end Sys2Proof.Machine

namespace Sys2Proof.Machine

/-! What sends a command: SEND_CMD, MEASURE and the command bytes (R84, R139, R171). -/

/-- An instruction that sends a command steps through a micro-program that begins with `SendCmd`, and ends with it but
for MEASURE. -/
theorem exec_sends {i : Instr} {c : Byte} (h : commandOf i = some c) :
    ∃ op p rest, (∀ s, exec i s = operate op p s) ∧ p.steps = sendCmdSeq c ++ rest ∧
      ((∀ b, i ≠ .measure b) → rest = [] ∧ p.final = []) := by
  cases i <;> cases h
  case measure =>
    exact ⟨.measure c, measureProgram c, _, fun _ => rfl, by
      simp only [measureProgram, measureSeq, List.append_assoc]; rfl,
      fun hne => absurd rfl (hne c)⟩
  all_goals exact ⟨.sendCmd _, _, [], fun _ => rfl, (List.append_nil _).symm, fun _ => ⟨rfl, rfl⟩⟩

theorem bitsBefore_samples (c : Byte) (j : Nat) : ∀ st ∈ bitsBefore c j, st.act.samples = false := by
  induction j with
  | zero => simp [bitsBefore]
  | succ j ih =>
    have hbit (us : List Upd) : ∀ st ∈ riding us bitSeq, st.act.samples = false := by
      simp [riding, bitSeq, plain, mDelay, mClkHigh, mClkLow, Act.samples]
    exact fun st hst => (List.mem_append.mp hst).elim (ih st) (hbit _ st)

/-- The start condition, `j` bits of the command, and the next one up to its rising edge. -/
def commandToBit (c : Byte) (j : Nat) : List SubStep :=
  startSeq ++ bitsBefore c j ++ riding (bitUpds c j) bitSetup

theorem commandToBit_length (c : Byte) (j : Nat) : (commandToBit c j).length = 17 + 6 * j := by
  have hstart : startSeq.length = 14 := rfl
  have hsetup : (riding (bitUpds c j) bitSetup).length = 3 := rfl
  rw [commandToBit, List.length_append, List.length_append, bitsBefore_length, hstart, hsetup]
  omega

theorem commandToBit_samples (c : Byte) (j : Nat) : ∀ st ∈ commandToBit c j, st.act.samples = false := by
  have hsetup (us : List Upd) : ∀ st ∈ riding us bitSetup, st.act.samples = false := by
    simp [riding, bitSetup, plain, mDelay, Act.samples]
  intro st hst
  simp only [commandToBit, List.mem_append] at hst
  obtain (hst | hst) | hst := hst
  · exact startSeq_samples st hst
  · exact bitsBefore_samples c j st hst
  · exact hsetup _ st hst

/-- Each bit of the command has its rising edge next, wherever in `SendCmd` it stands. -/
theorem commandToBit_prefix (c : Byte) {j : Nat} (hj : j < 8) :
    ∃ rest, sendCmdSeq c = commandToBit c j ++ mClkHigh ++ rest := by
  obtain ⟨rest, hrest⟩ := bitsBefore_prefix c (show j + 1 ≤ 8 from hj)
  refine ⟨mDelay ++ mClkLow ++ (rest ++ (ackSeq ++ riding [.clearPollCnt] (plain [.pollReady]))), ?_⟩
  rw [sendCmdSeq, commandBits_eq, ← hrest, bitsBefore, riding_bitSeq]
  simp only [commandToBit, List.append_assoc]

theorem runBlind_commandToBit (c : Byte) {j : Nat} (hj : j < 8) (s : State) :
    ∃ l sc, runBlind (commandToBit c j) s =
        some ((s.withLines (presenting (c.getLsbD (7 - j)) l)).withScratch sc) ∧
      l.clkDir = s.lines.clkDir ∧ l.clkLvl = false ∧ bitsSent c sc (j + 1) := by
  obtain ⟨l, sc, hbits, hdir, hlvl, hsent⟩ := runBlind_bitsBefore c hj.le (s := s.withLines (idleLines s)) rfl
  obtain ⟨sc', hbit, hsent'⟩ :=
    runBlind_riding_bitSetup (s := ((s.withLines (idleLines s)).withLines l).withScratch sc) hj hsent
  refine ⟨l, sc', ?_, hdir, hlvl, hsent'⟩
  rw [commandToBit, List.append_assoc, runBlind_append (runBlind_startSeq s), runBlind_append hbits, hbit]
  rfl

/-- Settles O25: before a bit's rising edge its data primitive has been done, and the edge leaves DATA. -/
theorem commandBitsAreSentMsbFirst : Obligations.CommandBitsAreSentMsbFirst := by
  intro i c s j ds d hi hready hj hlen
  obtain ⟨op, p, rest, hexec, hsteps, -⟩ := exec_sends hi
  obtain ⟨rest', hrest'⟩ := commandToBit_prefix c hj
  rw [hrest', List.append_assoc] at hsteps
  obtain ⟨l, sc, hbit, -, hlvl, -⟩ := runBlind_commandToBit c hj (issue op s)
  have hedge := runBlind_append (l' := mClkHigh) hbit
  obtain ⟨d1, hrun1⟩ := runOp_of_runBlind hexec (hready.accepts op) (ds := ds) (by rw [hsteps, List.append_assoc])
    (commandToBit_samples c j) (by rw [hlen, commandToBit_length]; omega) hbit
  obtain ⟨d2, hrun2⟩ := runOp_of_runBlind hexec (hready.accepts op) (ds := ds ++ [d]) hsteps
    (by simpa [mClkHigh, plain, Act.samples, or_imp, forall_and] using commandToBit_samples c j)
    (by simp [hlen, commandToBit_length, mClkHigh, plain]; omega) hedge
  refine ⟨_, _, hrun1, hlvl, hrun2, rfl, ?_⟩
  cases hb : c.getLsbD (7 - j) <;> exact ⟨rfl, rfl⟩

end Sys2Proof.Machine

namespace Sys2Proof.Machine

/-! The acknowledgment (R142). -/

/-- `SendCmd` up to the sample of the acknowledgment. -/
def commandToAck (c : Byte) : List SubStep :=
  startSeq ++ bitsBefore c 8 ++ riding (bitUpds c 8) (mDataRelease ++ mDelay ++ mClkHigh ++ mDelay)

theorem sendCmdSeq_eq (c : Byte) :
    sendCmdSeq c = commandToAck c ++ mSample ++
      [⟨[.ackFromSample], .ackClkLow⟩, ⟨[.clearPollCnt], .pollReady⟩] := by
  have hack : ackSeq ++ riding [.clearPollCnt] (plain [.pollReady]) =
      riding (bitUpds c 8) (mDataRelease ++ mDelay ++ mClkHigh ++ mDelay) ++
        (mSample ++ [⟨[.ackFromSample], .ackClkLow⟩, ⟨[.clearPollCnt], .pollReady⟩]) := rfl
  rw [sendCmdSeq, commandBits_eq]
  simp only [commandToAck, List.append_assoc, hack]

theorem commandToAck_samples (c : Byte) : ∀ st ∈ commandToAck c, st.act.samples = false := by
  have hpulse :
      ∀ st ∈ riding afterBit (mDataRelease ++ mDelay ++ mClkHigh ++ mDelay), st.act.samples = false := by
    decide
  intro st hst
  simp only [commandToAck, List.mem_append] at hst
  obtain (hst | hst) | hst := hst
  · exact startSeq_samples st hst
  · exact bitsBefore_samples c 8 st hst
  · exact hpulse st hst

/-- Before the sample of the acknowledgment CLK is high and DATA RELEASED. -/
theorem runBlind_commandToAck (c : Byte) (s : State) :
    ∃ sc, runBlind (commandToAck c) s =
      some ((s.withLines { idleLines s with clkLvl := true }).withScratch sc) := by
  obtain ⟨l, sc, hbits, hdir, -, hsent⟩ := runBlind_bitsBefore c le_rfl (s := s.withLines (idleLines s)) rfl
  obtain ⟨sc', hpre, -⟩ := assignAll_bitUpds (s := ((s.withLines (idleLines s)).withLines l).withScratch sc) hsent
  have hlines : { l with clkLvl := true, dataDir := .inp, dataPue := true } =
      { idleLines s with clkLvl := true } := by
    rw [hdir]; rfl
  refine ⟨sc', ?_⟩
  rw [commandToAck, List.append_assoc, runBlind_append (runBlind_startSeq s), runBlind_append hbits,
    runBlind_riding hpre (by decide), ← hlines]
  rfl

/-- An operation that was issued in `s`, where its steps have brought the lines, ACKBIT and SMPBIT, the scratch
registers and the sequencer. -/
def midway (q : Seq) (l : Lines) (ack smp : Held Bool) (d : Drive) (sc : Scratch) (s : State) : State :=
  { s with
    lines := l, seq := q, scratch := sc
    status := { s.status with busy := true, illegal := false, outcome := .none, ackBit := ack, smpBit := smp }
    env := { s.env with sensDrv := d } }

section
variable (q q' : Seq) (l : Lines) (ack smp : Held Bool) (a b : Bool) (d d' : Drive) (sc : Scratch) (s : State)

@[simp] theorem midway_withSeq : (midway q l ack smp d sc s).withSeq q' = midway q' l ack smp d sc s := rfl

@[simp] theorem setDrive_midway : setDrive d' (midway q l ack smp d sc s) = midway q l ack smp d' sc s := rfl

@[simp] theorem setClkLvl_midway :
    setClkLvl b (midway q l ack smp d sc s) = midway q { l with clkLvl := b } ack smp d sc s := rfl

@[simp] theorem setAckBit_midway : setAckBit a (midway q l ack smp d sc s) = midway q l (.val a) smp d sc s := rfl

@[simp] theorem setSmpBit_midway : setSmpBit b (midway q l ack smp d sc s) = midway q l ack (.val b) d sc s := rfl

@[simp] theorem setPollCnt_midway (n : Nat) :
    setPollCnt n (midway q l ack smp d sc s) = midway q l ack smp d { sc with pollCnt := some n } s := rfl

end

/-- A command after the ninth pulse: the acknowledgment `a` in ACKBIT, the last sample `b` in SMPBIT, the lines
idle. -/
abbrev answered (q : Seq) (a b : Bool) (d : Drive) (sc : Scratch) (s : State) : State :=
  midway q (idleLines s) (.val a) (.val b) d sc s

theorem exists_eq_append_pair {α : Type} {l : List α} {n : Nat} {x : α} (hlen : l.length = n + 2)
    (hx : l[n]? = some x) : ∃ as y, as.length = n ∧ l = as ++ [x] ++ [y] := by
  obtain ⟨hn, rfl⟩ := List.getElem?_eq_some_iff.mp hx
  obtain ⟨y, hy⟩ := List.length_eq_one_iff.mp (show (l.drop (n + 1)).length = 1 by rw [List.length_drop]; omega)
  refine ⟨l.take n, y, by rw [List.length_take]; omega, ?_⟩
  rw [← hy, List.append_assoc, List.singleton_append, ← List.drop_eq_getElem_cons, List.take_append_drop]

/-- A sample while DATA is RELEASED is what the sensor presents (R34, R107). -/
theorem sample_presented {s : State} (h : Released s) {b : Bool} (hb : s.env.sensDrv = driveOf b) :
    sample s = (b, setSmpBit b s) := by
  have hlevel : decide (s.env.sensDrv = .release) = b := by rw [hb]; cases b <;> rfl
  rw [sample_released s h.1 (.inl h.2), hlevel]

section
variable {i op : Instr} {c : Byte} {p : MicroProgram} {rest : List SubStep} {s : State}

/-- The ninth pulse's falling edge, with the sample just taken (R142). -/
theorem operate_ackClkLow {k : Nat} {a : Bool} (hseq : s.seq = .run op k .fresh)
    (hsub : p.steps[k]? = some ⟨[.ackFromSample], .ackClkLow⟩) (hsmp : s.status.smpBit = .val a) :
    operate op p s = .next ((setClkLvl false (setAckBit a s)).withSeq (nextSeq op k (ackFlow a))) := by
  have hpre : assignAll [.ackFromSample] s = .ok (setAckBit a s) := by simp [assignAll, assign, lastSample, hsmp]
  exact operate_takes hseq (by simp) hsub hpre rfl

/-- Where the acknowledgment's pulse has fallen the operation goes on to its poll, or raises NACK (R142). -/
theorem runOp_answered (hexec : ∀ s, exec i s = operate op p s) (hsteps : p.steps = sendCmdSeq c ++ rest)
    (hs : Accepts op s) {ds : List Drive} {a : Bool} (hlen : ds.length = 70) (ha : ds[68]? = some (driveOf a)) :
    ∃ d sc, runOp i ds s = .next (answered (nextSeq op 68 (ackFlow a)) a a d sc s) := by
  obtain ⟨ds, d, hlen', rfl⟩ := exists_eq_append_pair hlen ha
  obtain ⟨d0, ds, rfl⟩ := List.exists_cons_of_length_eq_add_one hlen'
  rw [sendCmdSeq_eq] at hsteps
  obtain ⟨sc, hblind⟩ := runBlind_commandToAck c (issue op s)
  obtain ⟨d1, hhead⟩ := runList_of_runBlind (commandToAck_samples c) (Nat.succ.inj hlen') hblind d0
  have hsampled : runList (commandToAck c ++ mSample) (ds ++ [driveOf a]) (setDrive d0 (issue op s)) =
      some (midway (.run op 0 .fresh) { idleLines s with clkLvl := true } s.status.ackBit (.val a) (driveOf a) sc
        s) :=
    (runList_append hhead).trans (congrArg (fun r : Bool × State => some r.2) (sample_presented ⟨rfl, rfl⟩ rfl))
  have hsub : p.steps[68]? = some ⟨[.ackFromSample], .ackClkLow⟩ := by rw [hsteps]; rfl
  refine ⟨d, sc, (runOp_append (runOp_subSteps hexec hs (by rw [hsteps, List.append_assoc]) hsampled)).trans ?_⟩
  refine runOp_cons ((hexec _).trans ((operate_ackClkLow rfl hsub rfl).trans ?_))
  simp only [midway_withSeq, setDrive_midway, setAckBit_midway, setClkLvl_midway]
  rfl

/-- A raise is followed by the completion (R210). -/
theorem runOp_endsRaise (hexec : ∀ s, exec i s = operate op p s) {k : Nat} {o : OpResult} (d : Drive)
    (hseq : s.seq = .run op k (.raised o)) : runOp i [d] s = .next (complete o (setDrive d s)) := by
  refine runOp_cons ((hexec _).trans ?_)
  simp [operate, hseq, continueOp]

end

/-- Settles O26: the sample at the ninth pulse is 1, so the operation raises NACK and completes. -/
theorem unacknowledgedCommandEndsWithNack : Obligations.UnacknowledgedCommandEndsWithNack := by
  intro i c s ds d hi hready hlen hack
  obtain ⟨op, p, rest, hexec, hsteps, -⟩ := exec_sends hi
  obtain ⟨d', sc, hrun⟩ := runOp_answered hexec hsteps (hready.accepts op) (a := true) hlen hack
  exact (runOp_append hrun).trans (runOp_endsRaise hexec d rfl)

end Sys2Proof.Machine

namespace Sys2Proof.Machine

/-! Polls (R145, R146). -/

/-- A poll's sub-step, with the assignment that rides on its first iteration. -/
def pollStep (a : Act) : SubStep := ⟨[.clearPollCnt], a⟩

/-- The state in which the poll at `k`, first reached in `s`, has read `b` in each of `m` samples. -/
def polled (op : Instr) (k : Nat) (b : Bool) (s : State) : Nat → State
  | 0 => s
  | m + 1 => (setPollCnt (m + 1) (setSmpBit b (setDrive (driveOf b) s))).withSeq (.run op k .looping)

/-- A poll that was first reached in `s`, in an iteration at which POLLCNT counts the `m` samples before it. -/
def counting (m : Nat) (d : Drive) (smp : Held Bool) (q : Seq) (s : State) : State :=
  ((setPollCnt m (setDrive d s)).withStatus { s.status with smpBit := smp }).withSeq q

/-- What rides on an iteration brings POLLCNT to the number of samples before it. -/
theorem polled_counts (op : Instr) (k : Nat) (b : Bool) {s : State} (m : Nat) (d : Drive)
    (hseq : s.seq = .run op k .fresh) :
    ∃ stage smp, (setDrive d (polled op k b s m)).seq = .run op k stage ∧ (∀ o, stage ≠ .raised o) ∧
      assignAll (if stage = .looping then [] else [.clearPollCnt]) (setDrive d (polled op k b s m)) =
        .ok (counting m d smp (.run op k stage) s) := by
  cases m with
  | zero => exact ⟨.fresh, s.status.smpBit, hseq, by simp, by rw [← hseq]; rfl⟩
  | succ m => exact ⟨.looping, .val b, rfl, by simp, rfl⟩

/-- A sample of its level ends a poll. -/
theorem pollOnce_hit {level : Bool} {bound : Bound} {s : State} (hs : Released s)
    (hdrv : s.env.sensDrv = driveOf level) : pollOnce level bound s = .ok (setSmpBit level s, .advance) := by
  simp [pollOnce, sample_presented hs hdrv]

/-- Any other sample counts and, at the bound, expires the poll. -/
theorem pollOnce_miss {level : Bool} {bound : Bound} {s : State} {m : Nat} (hs : Released s)
    (hdrv : s.env.sensDrv = driveOf (!level)) (hcnt : s.scratch.pollCnt = some m) :
    pollOnce level bound s = .ok (setPollCnt (m + 1) (setSmpBit (!level) s),
      if bound = .samples (m + 1) then .raise .timeout else .again) := by
  have hcnt' : getPollCnt (setSmpBit (!level) s) = .ok m := by simp [getPollCnt, setSmpBit, hcnt]
  by_cases hbound : bound = .samples (m + 1) <;>
    simp [pollOnce, sample_presented hs hdrv, pollMiss, hcnt', hbound]

/-- A bound that admits more samples than have been taken does not expire the poll. -/
theorem Admits.ne_samples {bound : Bound} {m : Nat} (h : Admits bound (m + 1)) : bound ≠ .samples (m + 1) := by
  rintro rfl
  obtain h | ⟨n, h, hlt⟩ := h <;> cases h
  exact absurd hlt (lt_irrefl _)

theorem Admits.of_succ {bound : Bound} {m : Nat} (h : Admits bound (m + 1)) : Admits bound m :=
  h.imp_right fun ⟨n, hn, hlt⟩ => ⟨n, hn, by omega⟩

section
variable {i op : Instr} {p : MicroProgram} {k : Nat} {a : Act} {level : Bool} {bound : Bound} {s : State}
  (hexec : ∀ s, exec i s = operate op p s) (hseq : s.seq = .run op k .fresh)
  (hsub : p.steps[k]? = some (pollStep a)) (hs : Released s)
  (hact : ∀ t : State, t.cfg = s.cfg → perform a t = pollOnce level bound t)

include hexec hseq hsub hs hact

/-- The iteration that sees the level goes on to the next index. -/
theorem exec_polled_hit (m : Nat) :
    exec i (setDrive (driveOf level) (polled op k (!level) s m)) =
      .next ((setPollCnt m (setSmpBit level (setDrive (driveOf level) s))).withSeq (.run op (k + 1) .fresh)) := by
  obtain ⟨stage, smp, hrun, hstage, hpre⟩ := polled_counts op k (!level) m (driveOf level) hseq
  have hperform := (hact (counting m (driveOf level) smp (.run op k stage) s) rfl).trans (pollOnce_hit hs rfl)
  exact (hexec _).trans (operate_takes hrun hstage hsub hpre hperform)

/-- Any other iteration counts: the poll goes on, or expires at its bound. -/
theorem exec_polled_miss (m : Nat) :
    exec i (setDrive (driveOf (!level)) (polled op k (!level) s m)) =
      .next ((polled op k (!level) s (m + 1)).withSeq
        (if bound = .samples (m + 1) then .run op k (.raised .timeout) else .run op k .looping)) := by
  obtain ⟨stage, smp, hrun, hstage, hpre⟩ := polled_counts op k (!level) m (driveOf (!level)) hseq
  have hperform := (hact (counting m (driveOf (!level)) smp (.run op k stage) s) rfl).trans
    (pollOnce_miss (m := m) hs rfl rfl)
  rw [hexec, operate_takes hrun hstage hsub hpre hperform]
  split <;> rfl

/-- A poll that has not seen its level in as many samples as its bound admits goes on. -/
theorem runOp_polled {m : Nat} (hm : Admits bound m) :
    runOp i (List.replicate m (driveOf (!level))) s = .next (polled op k (!level) s m) := by
  induction m with
  | zero => rfl
  | succ m ih =>
    rw [List.replicate_succ', runOp_append (ih hm.of_succ)]
    refine runOp_cons ((exec_polled_miss hexec hseq hsub hs hact m).trans ?_)
    rw [if_neg hm.ne_samples]
    rfl

/-- A poll that sees its level within its bound goes on to the next index. -/
theorem runOp_poll_hit {m : Nat} (hm : Admits bound m) :
    runOp i (List.replicate m (driveOf (!level)) ++ [driveOf level]) s =
      .next ((setPollCnt m (setSmpBit level (setDrive (driveOf level) s))).withSeq (.run op (k + 1) .fresh)) :=
  (runOp_append (runOp_polled hexec hseq hsub hs hact hm)).trans
    (runOp_cons (exec_polled_hit hexec hseq hsub hs hact m))

/-- A poll that has not seen its level in as many samples as its bound says raises TIMEOUT. -/
theorem runOp_poll_expires {n : Nat} (hn : bound = .samples (n + 1)) :
    runOp i (List.replicate (n + 1) (driveOf (!level))) s =
      .next ((polled op k (!level) s (n + 1)).withSeq (.run op k (.raised .timeout))) := by
  have hbefore := runOp_polled hexec hseq hsub hs hact (m := n) (.inr ⟨n + 1, hn, n.lt_succ_self⟩)
  rw [List.replicate_succ', runOp_append hbefore]
  refine runOp_cons ((exec_polled_miss hexec hseq hsub hs hact n).trans ?_)
  rw [if_pos hn]

end

theorem perform_pollReady {s t : State} (h : t.cfg = s.cfg) :
    perform .pollReady t = pollOnce true s.cfg.params.readyBound t := by
  rw [← h]; rfl

/-- The ready poll follows the acknowledgment (R143). -/
theorem getElem_pollReady {c : Byte} {p : MicroProgram} {rest : List SubStep} (h : p.steps = sendCmdSeq c ++ rest) :
    p.steps[69]? = some (pollStep .pollReady) := by
  rw [h]; rfl

/-- Settles O27: the poll's last sample is high, and the operation is at its end. -/
theorem acknowledgedCommandEndsWithOk : Obligations.AcknowledgedCommandEndsWithOk := by
  intro i c s ds m d hi hmeasure hready hlen hack hm
  obtain ⟨op, p, rest, hexec, hsteps, hend⟩ := exec_sends hi
  obtain ⟨rfl, hfinal⟩ := hend hmeasure
  have hlast : p.steps.length = 70 := by rw [hsteps]; rfl
  obtain ⟨d', sc, hrun⟩ := runOp_answered hexec hsteps (hready.accepts op) (a := false) hlen hack
  have hpoll := runOp_poll_hit (level := true) hexec rfl (getElem_pollReady hsteps) ⟨rfl, rfl⟩
    (s := answered (.run op 69 .fresh) false false d' sc s) (fun t ht => perform_pollReady ht) hm
  have hends {t : State} (ht : t.seq = .run op 70 .fresh) : runOp i [d] t = .next (complete .ok (setDrive d t)) :=
    runOp_ends hexec (by rw [ht, hlast]) (by rw [hfinal]; rfl)
  rw [List.append_assoc, runOp_append hrun]
  refine (runOp_append hpoll).trans ?_
  simp only [answered, setDrive_midway, setSmpBit_midway, setPollCnt_midway, midway_withSeq]
  exact hends rfl

/-- A bound that is a number is at least 1 (R5). -/
theorem one_le_readyBound {c : Config} {n : Nat} (h : c.params.readyBound = .samples n) : 1 ≤ n := by
  have hok := c.ok
  simp only [Params.ok, Bool.and_eq_true, h, Bound.ok, decide_eq_true_eq] at hok
  tauto

/-- Settles O28: every sample of the poll is low, and the last is at the bound. -/
theorem expiredReadyPollEndsWithTimeout : Obligations.ExpiredReadyPollEndsWithTimeout := by
  intro i c s ds n d hi hready hlen hack hn
  obtain ⟨op, p, rest, hexec, hsteps, -⟩ := exec_sends hi
  obtain ⟨n, rfl⟩ := Nat.exists_eq_add_one.mpr (one_le_readyBound hn)
  obtain ⟨d', sc, hrun⟩ := runOp_answered hexec hsteps (hready.accepts op) (a := false) hlen hack
  have hpoll := runOp_poll_expires (level := true) hexec rfl (getElem_pollReady hsteps) ⟨rfl, rfl⟩
    (s := answered (.run op 69 .fresh) false false d' sc s) (fun t ht => perform_pollReady ht) hn
  rw [List.append_assoc, runOp_append hrun]
  refine (runOp_append hpoll).trans ?_
  simp only [polled, answered, setDrive_midway, setSmpBit_midway, setPollCnt_midway, midway_withSeq]
  exact runOp_endsRaise hexec d rfl

end Sys2Proof.Machine

namespace Sys2Proof.Machine

/-! Byte reads (R147). -/

/-- What a sample of DATA gives, and the free-value index after it: a draw while the engine drives DATA or the line
floats, else the sensor's drive (R34, R107). -/
def lineSample (l : Lines) (c : Config) (d : Drive) (n : Nat) : Bool × Nat :=
  if l.dataDir = .out ∨ (d = .release ∧ l.dataPue = false ∧ c.params.extPullup = false) then
    (Config.drawBit n, n + 1)
  else (decide (d = .release), n)

theorem sample_eq {s : State} {b : Bool} {n : Nat}
    (h : lineSample s.lines s.cfg s.env.sensDrv s.fresh = (b, n)) : sample s = (b, setSmpBit b (s.withFresh n)) := by
  unfold lineSample at h
  split at h
  · rename_i hdraws
    cases h
    exact sample_of_draws hdraws
  · rename_i hheld
    cases h
    exact sample_of_not_draws hheld

/-- A byte read that started in `s`: `acc` in ACC, `n` in BITCNT, the last sample in SMPBIT. -/
def reading (acc : Byte) (n : BitVec 4) (l : Lines) (smp : Held Bool) (d : Drive) (m : Nat) (s : State) : State :=
  { s with
    lines := l, scratch := { s.scratch with acc := some acc, bitCnt := some n }
    status := { s.status with smpBit := smp }, env := { s.env with sensDrv := d }, fresh := m }

/-- The byte read starts with ACC and BITCNT at 0. -/
theorem assignAll_clear (s : State) : assignAll [.clearAcc, .clearBitCnt] s =
    .ok (reading 0 0 s.lines s.status.smpBit s.env.sensDrv s.fresh s) := rfl

/-- One bit: a clock pulse, the sample in its high phase, which goes into ACC from the right. -/
theorem runList_readBitSeq {ds : List Drive} (hlen : ds.length = 5) {d : Drive} (hd : ds[3]? = some d) {l : Lines}
    {s : State} {m m' : Nat} {b : Bool} (hb : lineSample l s.cfg d m = (b, m')) (acc : Byte) (n : BitVec 4)
    (smp : Held Bool) (d0 : Drive) :
    ∃ d', runList readBitSeq ds (reading acc n l smp d0 m s) =
      some (reading ((acc <<< 1) ||| (BitVec.ofBool b).zeroExtend 8) (n + 1) { l with clkLvl := false } (.val b) d' m'
        s) := by
  match ds, hlen with
  | [d1, d2, d3, d4, d5], _ =>
    obtain rfl : d4 = d := Option.some.inj hd
    have hsample : sample (reading acc n { l with clkLvl := true } smp d4 m s) =
        (b, reading acc n { l with clkLvl := true } (.val b) d4 m' s) := sample_eq hb
    refine ⟨d5, ?_⟩
    have hpulse : runList readBitSeq [d1, d2, d3, d4, d5] (reading acc n l smp d0 m s) =
        runList (riding [.shiftInSample, .incBitCnt] mClkLow) [d5]
          (sample (reading acc n { l with clkLvl := true } smp d4 m s)).2 := rfl
    rw [hpulse, hsample]
    rfl

/-- The byte whose bits, from bit 7 on, are the first `n` of a sequence, as ACC takes them in. -/
def shiftedIn (bit : Nat → Bool) : Nat → Byte
  | 0 => 0
  | n + 1 => (shiftedIn bit n <<< 1) ||| (BitVec.ofBool (bit n)).zeroExtend 8

theorem getLsbD_shiftedIn (bit : Nat → Bool) {n i : Nat} (hn : n ≤ 8) (hi : i < n) :
    (shiftedIn bit n).getLsbD i = bit (n - 1 - i) := by
  induction n generalizing i with
  | zero => omega
  | succ n ih =>
    cases i with
    | zero => simp [shiftedIn]
    | succ i =>
      have hbit := ih (by omega) (show i < n by omega)
      have hlt : i + 1 < 8 := by omega
      have hsub : n + 1 - 1 - (i + 1) = n - 1 - i := by omega
      simp only [shiftedIn, BitVec.getLsbD_or, BitVec.getLsbD_shiftLeft, hsub, ← hbit]
      simp [hlt]

theorem shiftedIn_eq (v : Byte) : shiftedIn (fun j => v.getLsbD (7 - j)) 8 = v := by
  refine BitVec.eq_of_getLsbD_eq fun i hi => ?_
  rw [getLsbD_shiftedIn _ le_rfl hi]
  congr 1
  omega

/-- The bits of a byte read, one after another: `bit` is what the samples under the drives `drv` give, and `idx` the
free-value index before each. -/
theorem runList_readBits {bit : Nat → Bool} {drv : Nat → Drive} {idx : Nat → Nat} {l : Lines} {s : State}
    (n : Nat) {ds : List Drive} (hlen : ds.length = 5 * (n + 1)) (hdrv : ∀ j ≤ n, ds[5 * j + 3]? = some (drv j))
    (hbit : ∀ j ≤ n, lineSample l s.cfg (drv j) (idx j) = (bit j, idx (j + 1))) (smp : Held Bool) (d : Drive) :
    ∃ d', runList (List.replicate (n + 1) readBitSeq).flatten ds (reading 0 0 l smp d (idx 0) s) =
      some (reading (shiftedIn bit (n + 1)) (BitVec.ofNat 4 (n + 1)) { l with clkLvl := false } (.val (bit n)) d'
        (idx (n + 1)) s) := by
  induction n generalizing ds with
  | zero =>
    rw [List.replicate_one, List.flatten_singleton]
    exact runList_readBitSeq hlen (hdrv 0 le_rfl) (hbit 0 le_rfl) 0 0 smp d
  | succ n ih =>
    obtain ⟨as, bs, rfl, has⟩ : ∃ as bs, ds = as ++ bs ∧ as.length = 5 * (n + 1) :=
      ⟨_, _, (List.take_append_drop (5 * (n + 1)) ds).symm, by simp [hlen]⟩
    have hbs : bs.length = 5 := by simp [has] at hlen; omega
    obtain ⟨d1, hbefore⟩ := ih has
      (fun j hj => by rw [← hdrv j (by omega), List.getElem?_append_left (by omega)]) fun j hj => hbit j (by omega)
    have hlast : bs[3]? = some (drv (n + 1)) := by
      rw [← hdrv (n + 1) le_rfl, List.getElem?_append_right (by omega)]; congr 1; omega
    obtain ⟨d2, hbitrun⟩ := runList_readBitSeq hbs hlast (l := { l with clkLvl := false }) (hbit (n + 1) le_rfl)
      (shiftedIn bit (n + 1)) (BitVec.ofNat 4 (n + 1)) (.val (bit n)) d1
    have hcnt : BitVec.ofNat 4 (n + 1) + 1 = BitVec.ofNat 4 (n + 1 + 1) := (BitVec.ofNat_add (n + 1) 1).symm
    refine ⟨d2, ?_⟩
    rw [List.replicate_succ', List.flatten_append, List.flatten_singleton, runList_append hbefore, hbitrun, hcnt]
    rfl

/-- A byte read after its bits: the acknowledgment's clock pulse, with DATA low in it or not, and DATA released. -/
def readTail (sup : Bool) : List SubStep :=
  (if sup then [] else mDataLow) ++ mDelay ++ mClkHigh ++ mDelay ++ mClkLow ++ mDataRelease ++ mDelay

theorem readByteSeq_eq (sup : Bool) : readByteSeq sup =
    riding [.clearAcc, .clearBitCnt] (List.replicate 8 readBitSeq).flatten ++ readTail sup := by
  simp only [readByteSeq, readTail, List.append_assoc]

theorem readTail_length (sup : Bool) : (readTail sup).length = if sup then 7 else 9 := by
  cases sup <;> rfl

theorem readTail_samples (sup : Bool) : ∀ st ∈ readTail sup, st.act.samples = false := by
  cases sup <;> decide

theorem runBlind_readTail (sup : Bool) (s : State) :
    runBlind (readTail sup) s = some (s.withLines (idleLines s)) := by
  cases sup <;> rfl

/-- A byte read gives the byte of its samples and leaves the lines idle (R147, R150). -/
theorem runList_readByteSeq {sup : Bool} {bit : Nat → Bool} {drv : Nat → Drive} {idx : Nat → Nat} {s : State}
    {ds : List Drive} (hlen : ds.length = if sup then 47 else 49) (hdrv : ∀ j ≤ 7, ds[5 * j + 3]? = some (drv j))
    (hbit : ∀ j ≤ 7, lineSample s.lines s.cfg (drv j) (idx j) = (bit j, idx (j + 1))) (hidx : idx 0 = s.fresh) :
    ∃ d, runList (readByteSeq sup) ds s =
      some (reading (shiftedIn bit 8) 8 (idleLines s) (.val (bit 7)) d (idx 8) s) := by
  obtain ⟨as, bs, rfl, has⟩ : ∃ as bs, ds = as ++ bs ∧ as.length = 40 :=
    ⟨_, _, (List.take_append_drop 40 ds).symm, by simp [hlen]; split <;> omega⟩
  have hbs : bs.length = (readTail sup).length := by
    rw [readTail_length]
    simp [has] at hlen
    cases sup <;> simp at hlen ⊢ <;> omega
  obtain ⟨d1, hbits⟩ := runList_readBits (l := s.lines) 7 has
    (fun j hj => by rw [← hdrv j hj, List.getElem?_append_left (by omega)]) hbit s.status.smpBit s.env.sensDrv
  obtain ⟨d2, htail⟩ := runList_of_runBlind (readTail_samples sup) hbs 
    (runBlind_readTail sup (reading (shiftedIn bit 8) 8 { s.lines with clkLvl := false } (.val (bit 7)) d1 (idx 8) s))
    d1
  refine ⟨d2, ?_⟩
  rw [hidx, ← runList_riding (assignAll_clear s) (by decide)] at hbits
  rw [readByteSeq_eq, runList_append hbits]
  exact htail

/-- READ_BYTE, from its issue to its completion: RDATA is the byte of the samples (R148). -/
theorem runOp_readByte {sup : Bool} {bit : Nat → Bool} {drv : Nat → Drive} {idx : Nat → Nat} {s : State}
    (hready : Ready s) {ds : List Drive} (hlen : ds.length = if sup then 47 else 49)
    (hdrv : ∀ j ≤ 7, ds[5 * j + 3]? = some (drv j))
    (hbit : ∀ j ≤ 7, lineSample s.lines s.cfg (drv j) (idx j) = (bit j, idx (j + 1))) (hidx : idx 0 = s.fresh)
    (d0 d : Drive) :
    runOp (.readByte sup) (d0 :: (ds ++ [d])) s = .next
      { endedWith .ok (idleLines s) d s with
        status := { s.status with busy := false, illegal := false, outcome := .ok, smpBit := .val (bit 7) }
        rdata := .val (shiftedIn bit 8), fresh := idx 8 } := by
  obtain ⟨d1, hrun⟩ := runList_readByteSeq (s := issue (.readByte sup) (setDrive d0 s)) hlen hdrv hbit hidx
  have hexec := exec_of_programOf (op := .readByte sup) (p := readByteProgram sup) rfl
  have hfinal (t : State) (d : Drive) : assignAll (readByteProgram sup).final
      (setDrive d (reading (shiftedIn bit 8) 8 (idleLines s) (.val (bit 7)) d1 (idx 8) t)) =
      .ok ((reading (shiftedIn bit 8) 8 (idleLines s) (.val (bit 7)) d (idx 8) t).withRdata
        (.val (shiftedIn bit 8))) := rfl
  exact runOp_completes hexec (hready.accepts _) hrun (hfinal _ d)

theorem lineSample_held {l : Lines} {c : Config} (hdir : l.dataDir = .inp)
    (hup : l.dataPue = true ∨ c.params.extPullup = true) (b : Bool) (n : Nat) :
    lineSample l c (driveOf b) n = (b, n) := by
  have hfloat : ¬ (l.dataPue = false ∧ c.params.extPullup = false) := by
    rintro ⟨hpue, hext⟩
    simp [hpue, hext] at hup
  have hlevel : decide (driveOf b = .release) = b := by cases b <;> rfl
  rw [lineSample, if_neg (by simp [hdir, hfloat]), hlevel]

/-- Settles O29: the samples are the bits of the byte, and the byte of its bits is the byte. -/
theorem readByteReturnsThePresentedByte : Obligations.ReadByteReturnsThePresentedByte := by
  intro sup v s ds d0 d hready hdir hup hlen hpresents
  have hrun := runOp_readByte (bit := fun j => v.getLsbD (7 - j)) (idx := fun _ => s.fresh) hready hlen
    (fun j hj => hpresents ⟨j, by omega⟩) (fun j _ => lineSample_held hdir hup _ _) rfl d0 d
  rw [shiftedIn_eq] at hrun
  exact hrun

/-- Settles O30: each sample is a draw, whatever the sensor drives. -/
theorem readByteWhileDrivingDraws : Obligations.ReadByteWhileDrivingDraws := by
  intro sup s ds d0 d hready hdir hlen
  have hge : 47 ≤ ds.length := by rw [hlen]; split <;> omega
  have hrun := runOp_readByte (bit := fun j => Config.drawBit (s.fresh + j)) (drv := fun j => ds.getD (5 * j + 3) d)
    (idx := fun j => s.fresh + j) hready hlen
    (fun j hj => by rw [List.getD_eq_getElem?_getD, List.getElem?_eq_getElem (by omega)]; rfl)
    (fun j _ => if_pos (.inl hdir)) rfl d0 d
  refine ⟨_, _, hrun, rfl, fun j => ?_, rfl, rfl, rfl, rfl, rfl⟩
  rw [getLsbD_shiftedIn _ le_rfl (by omega)]
  congr 2
  omega

end Sys2Proof.Machine

namespace Sys2Proof.Machine

/-! MEASURE (R171): the command, the conversion poll, the two byte reads. -/

/-- An acknowledged command whose ready poll sees DATA high within its bound is past `SendCmd` (R143, R145). -/
theorem runOp_readied {i op : Instr} {c : Byte} {p : MicroProgram} {rest : List SubStep} {s : State}
    (hexec : ∀ s, exec i s = operate op p s) (hsteps : p.steps = sendCmdSeq c ++ rest) (hs : Accepts op s)
    {ds : List Drive} {m : Nat} (hlen : ds.length = 70) (hack : ds[68]? = some .low)
    (hm : Admits s.cfg.params.readyBound m) :
    ∃ sc, runOp i (ds ++ readyDrives m) s = .next (answered (.run op 70 .fresh) false true .release sc s) := by
  obtain ⟨d, sc, hrun⟩ := runOp_answered hexec hsteps hs (a := false) hlen hack
  have hpoll := runOp_poll_hit (level := true) hexec rfl (getElem_pollReady hsteps) ⟨rfl, rfl⟩
    (s := answered (.run op 69 .fresh) false false d sc s) (fun t ht => perform_pollReady ht) hm
  exact ⟨{ sc with pollCnt := some m }, (runOp_append hrun).trans hpoll⟩

theorem exec_measure (c : Byte) (s : State) : exec (.measure c) s = operate (.measure c) (measureProgram c) s := rfl

/-- The two byte reads; between them the first byte goes to RDATA. -/
def measureReads : List SubStep := readByteSeq false ++ riding [.rdataFromAcc] (readByteSeq true)

theorem measureProgram_steps (c : Byte) :
    (measureProgram c).steps = sendCmdSeq c ++ (pollStep .pollConversion :: measureReads) := by
  simp only [measureProgram, measureSeq, measureReads, List.append_assoc]
  rfl

theorem measureProgram_steps_length (c : Byte) : (measureProgram c).steps.length = 71 + measureReads.length := by
  have hcommand : (sendCmdSeq c).length = 70 := rfl
  rw [measureProgram_steps, List.length_append, List.length_cons, hcommand]
  omega

theorem drop_measureProgram_steps (c : Byte) : (measureProgram c).steps.drop 71 = measureReads := rfl

/-- The conversion poll follows the command (R171). -/
theorem getElem_pollConversion (c : Byte) : (measureProgram c).steps[70]? = some (pollStep .pollConversion) := rfl

theorem perform_pollConversion {s t : State} (h : t.cfg = s.cfg) :
    perform .pollConversion t = pollOnce false s.cfg.params.convBound t := by
  rw [← h]; rfl

/-- A bound that is a number is at least 1 (R5). -/
theorem one_le_convBound {c : Config} {n : Nat} (h : c.params.convBound = .samples n) : 1 ≤ n := by
  have hok := c.ok
  simp only [Params.ok, Bool.and_eq_true, h, Bound.ok, decide_eq_true_eq] at hok
  tauto

/-- Settles O37: every sample of the poll is high, and the last is at the bound. -/
theorem expiredConversionPollEndsWithTimeout : Obligations.ExpiredConversionPollEndsWithTimeout := by
  intro c s ds m n d hready hlen hack hm hn
  obtain ⟨n, rfl⟩ := Nat.exists_eq_add_one.mpr (one_le_convBound hn)
  obtain ⟨sc, hcommand⟩ := runOp_readied (exec_measure c) (measureProgram_steps c) (hready.accepts _) hlen hack hm
  have hpoll := runOp_poll_expires (level := false) (exec_measure c) rfl (getElem_pollConversion c) ⟨rfl, rfl⟩
    (s := answered (.run (.measure c) 70 .fresh) false true .release sc s) (fun t ht => perform_pollConversion ht) hn
  rw [List.append_assoc, runOp_append hcommand]
  exact (runOp_append hpoll).trans (runOp_endsRaise (exec_measure c) d rfl)

/-- A MEASURE whose two polls see their levels within their bounds comes to its byte reads (R171). -/
theorem runOp_converted {c : Byte} {s : State} (hready : Ready s) {ds : List Drive} {m n : Nat}
    (hlen : ds.length = 70) (hack : ds[68]? = some .low) (hm : Admits s.cfg.params.readyBound m)
    (hn : Admits s.cfg.params.convBound n) :
    ∃ sc, runOp (.measure c) (ds ++ readyDrives m ++ conversionDrives n) s =
      .next (answered (.run (.measure c) 71 .fresh) false false .low sc s) := by
  obtain ⟨sc, hcommand⟩ := runOp_readied (exec_measure c) (measureProgram_steps c) (hready.accepts _) hlen hack hm
  have hpoll := runOp_poll_hit (level := false) (exec_measure c) rfl (getElem_pollConversion c) ⟨rfl, rfl⟩
    (s := answered (.run (.measure c) 70 .fresh) false true .release sc s) (fun t ht => perform_pollConversion ht) hn
  exact ⟨{ sc with pollCnt := some n }, (runOp_append hcommand).trans hpoll⟩

/-- A byte read while DATA is RELEASED gives the byte that the sensor presents (R147). -/
theorem runList_readByteSeq_presented {sup : Bool} {v : Byte} {s : State} {ds : List Drive} (hs : Released s)
    (hlen : ds.length = if sup then 47 else 49) (hv : Presents v ds) :
    ∃ d, runList (readByteSeq sup) ds s = some (reading v 8 (idleLines s) (.val (v.getLsbD 0)) d s.fresh s) := by
  obtain ⟨d, hrun⟩ := runList_readByteSeq (bit := fun j => v.getLsbD (7 - j)) (idx := fun _ => s.fresh) hlen
    (fun j hj => hv ⟨j, by omega⟩) (fun j _ => lineSample_held hs.1 (.inl hs.2) _ _) rfl
  rw [shiftedIn_eq] at hrun
  exact ⟨d, hrun⟩

/-- The two byte reads leave the first byte in RDATA and the second in ACC (R171). -/
theorem runList_measureReads {hi lo : Byte} {s : State} {r1 r2 : List Drive} (hs : Released s)
    (hlen1 : r1.length = 49) (hhi : Presents hi r1) (hlen2 : r2.length = 47) (hlo : Presents lo r2) :
    ∃ d, runList measureReads (r1 ++ r2) s =
      some ((reading lo 8 (idleLines s) (.val (lo.getLsbD 0)) d s.fresh s).withRdata (.val hi)) := by
  obtain ⟨d1, hfirst⟩ := runList_readByteSeq_presented (sup := false) hs hlen1 hhi
  obtain ⟨d2, hsecond⟩ := runList_readByteSeq_presented (sup := true)
    (s := (reading hi 8 (idleLines s) (.val (hi.getLsbD 0)) d1 s.fresh s).withRdata (.val hi)) ⟨rfl, rfl⟩ hlen2 hlo
  exact ⟨d2, (runList_append hfirst).trans ((runList_riding rfl (by decide)).trans hsecond)⟩

/-- The completion joins the byte in RDATA and the one in ACC, which then goes to RDATA (R171). -/
theorem runOp_measure_ends {c hi lo : Byte} {s : State} (d : Drive)
    (hseq : s.seq = .run (.measure c) (71 + measureReads.length) .fresh) (hacc : s.scratch.acc = some lo)
    (hrdata : s.rdata = .val hi) :
    runOp (.measure c) [d] s =
      .next (complete .ok (((setDrive d s).withResult (.val (joinBytes hi lo))).withRdata (.val lo))) := by
  rw [← measureProgram_steps_length c] at hseq
  exact runOp_ends (exec_measure c) hseq (by simp [measureProgram, assignAll, assign, getAcc, hacc, hrdata])

/-- Settles O36: both polls see their levels, the first byte waits in RDATA for the second, and the completion joins
them. -/
theorem measureReturnsTheTwoBytes : Obligations.MeasureReturnsTheTwoBytes := by
  intro c hi lo s ds r1 r2 m n d hready hlen hack hm hn hlen1 hhi hlen2 hlo
  obtain ⟨sc, hpolls⟩ := runOp_converted (c := c) hready hlen hack hm hn
  obtain ⟨d', hreads⟩ := runList_measureReads
    (s := answered (.run (.measure c) 71 .fresh) false false .low sc s) ⟨rfl, rfl⟩ hlen1 hhi hlen2 hlo
  have hbytes :=
    runOp_of_runList (exec_measure c) ((drop_measureProgram_steps c).trans (List.append_nil _).symm) rfl hreads
  rw [measureDrives, List.append_assoc _ r1, List.append_assoc, runOp_append hpolls, runOp_append hbytes]
  exact runOp_measure_ends d rfl rfl rfl

end Sys2Proof.Machine

namespace Sys2Proof.Machine

/-! The steps of the host request port, each as an equation (44_host_requests.md R191 to R197). -/

section
variable {s : State} {r : Request} {rest : List Request} {c : Byte}

theorem servePort_begins (hphase : s.port.phase = .idle) (hinbox : s.env.inbox = r :: rest) :
    servePort s = beginRequest r rest s := by
  simp only [servePort, hphase, hinbox]

theorem servePort_waitIdle (hphase : s.port.phase = .waitIdle c) :
    servePort s = .next (if s.status.busy = true then s else setPhase (.write c) s) := by
  simp only [servePort, hphase]

theorem servePort_writes (hphase : s.port.phase = .write c) {t : State}
    (hwrite : portWrite 0 2 (measureWord c) s = .next t) : servePort s = .next (setPhase .check t) := by
  simp only [servePort, hphase, hwrite]

theorem servePort_check_rejected (hphase : s.port.phase = .check) (hillegal : s.status.illegal = true) :
    servePort s = .next (respond 0 s) := by
  simp only [servePort, hphase, hillegal, if_true]

theorem servePort_check_issued (hphase : s.port.phase = .check) (hillegal : s.status.illegal = false) :
    servePort s = .next (setPhase .waitDone s) := by
  simp only [servePort, hphase, hillegal, Bool.false_eq_true, if_false]

theorem servePort_waitDone (hphase : s.port.phase = .waitDone) :
    servePort s = .next (if s.status.busy = true then s else setPhase .collect s) := by
  simp only [servePort, hphase]

theorem servePort_collect (hphase : s.port.phase = .collect) : servePort s = .next (collectResult s) := by
  simp only [servePort, hphase]

end

/-- Settles O48: each phase's step, the check of ILLEGAL with both its answers. -/
theorem measureRequestSteps : Obligations.MeasureRequestSteps := fun _ _ =>
  ⟨servePort_waitIdle, fun hphase _ => servePort_writes hphase, servePort_check_rejected, servePort_check_issued,
    servePort_waitDone⟩

/-! The request codes (R190). -/

theorem requestCodes_nodup (c : Config) : c.params.requestCodes.Nodup := by
  have hok := c.ok
  simp only [Params.ok, Bool.and_eq_true, decide_eq_true_eq] at hok
  exact hok.1.2

theorem lt_of_mem_requestCodes {c : Config} {n : Nat} (h : n ∈ c.params.requestCodes) :
    n < 2 ^ c.params.reqCodeWidth := by
  have hok := c.ok
  simp only [Params.ok, Bool.and_eq_true, List.all_eq_true, decide_eq_true_eq] at hok
  exact hok.2 n h

/-- Settles O50: an unrecognized code equals none of the five, so the request is begun and answered in one. -/
theorem unrecognizedRequestAnswersNothing : Obligations.UnrecognizedRequestAnswersNothing := by
  intro s r rest hphase hinbox hcode
  simp only [Params.requestCodes, List.mem_cons, List.not_mem_nil, or_false, not_or] at hcode
  obtain ⟨htemp, hhum, hrefused⟩ := hcode
  rw [servePort_begins hphase hinbox, beginRequest, if_neg htemp, if_neg hhum, if_neg (by simpa using hrefused)]
  rfl

/-- Settles O51: the five codes are distinct, so each is met by its own test. -/
theorem recognizedRequestsAreBegunOrRefused : Obligations.RecognizedRequestsAreBegunOrRefused := by
  intro s r rest hphase hinbox
  have hdistinct := requestCodes_nodup s.cfg
  simp only [Params.requestCodes, List.nodup_cons, List.mem_cons, List.not_mem_nil, or_false, not_or] at hdistinct
  obtain ⟨⟨htemphum, htemp⟩, hhum, -⟩ := hdistinct
  rw [servePort_begins hphase hinbox, beginRequest]
  refine ⟨fun hcode => ?_, fun hcode => ?_, fun hcode => ?_⟩
  · rw [if_pos hcode]; rfl
  · rw [if_neg (by omega), if_pos hcode]; rfl
  · rw [if_neg (by omega), if_neg (by omega), if_pos hcode]

/-- What a request is, by its code. -/
theorem requestCode_cases (p : Params) (n : Nat) :
    n = p.reqGetTemp ∨ n = p.reqGetHum ∨ (n = p.reqEcho ∨ n = p.reqSetStatus ∨ n = p.reqGetStatus) ∨
      n ∉ p.requestCodes := by
  by_cases h : n ∈ p.requestCodes
  · simp only [Params.requestCodes, List.mem_cons, List.not_mem_nil, or_false] at h
    tauto
  · exact .inr (.inr (.inr h))

/-! Collecting the result (R192, R196). -/

/-- `s` with the response of two bytes stored and handed over, and the port idle again (R191, R192). -/
def handOver (hi lo : Byte) (s : State) : State :=
  { s with
    port := { req := none, respBuf := (s.port.respBuf.write 0 hi).write 1 lo, respLen := 2, phase := .idle }
    env := { s.env with responses := s.env.responses ++ [[hi, lo]] } }

/-- RESP_BUF holds the two bytes, and what it held elsewhere (R65, R199). -/
theorem handOver_read (hi lo : Byte) (s : State) :
    (handOver hi lo s).port.respBuf.read 0 = some hi ∧ (handOver hi lo s).port.respBuf.read 1 = some lo ∧
      ∀ a, a ≠ 0 → a ≠ 1 → (handOver hi lo s).port.respBuf.read a = s.port.respBuf.read a := by
  refine ⟨?_, Memory.read_write_same .., fun a h0 h1 => ?_⟩
  · exact (Memory.read_write_other _ _ _ _ (by decide)).trans (Memory.read_write_same ..)
  · exact (Memory.read_write_other _ _ _ _ h1).trans (Memory.read_write_other _ _ _ _ h0)

/-- A response of two bytes hands over what was stored, whatever RESP_BUF held before. -/
theorem respond_storeResult (w : Word) (s : State) :
    respond 2 (storeResult w s) = handOver (w.extractLsb' 8 8) (w.extractLsb' 0 8) s := by
  obtain ⟨hfirst, hsecond, -⟩ := handOver_read (w.extractLsb' 8 8) (w.extractLsb' 0 8) s
  simp only [handOver] at hfirst hsecond
  simp only [respond, readResponses, readResponse, storeResult, State.withPort_port, hfirst, hsecond]
  rfl

/-- The high half of RESULT is the first byte read (R65). -/
theorem respond_storeResult_append (hi lo : Byte) (s : State) :
    respond 2 (storeResult (hi ++ lo) s) = handOver hi lo s := by
  have hhi : (hi ++ lo).extractLsb' 8 8 = hi := BitVec.extractLsb'_append_eq_left
  have hlo : (hi ++ lo).extractLsb' 0 8 = lo := BitVec.extractLsb'_append_eq_right
  rw [respond_storeResult, hhi, hlo]

theorem collectResult_of_ok {s : State} {hi lo : Byte} (hok : s.status.outcome = .ok)
    (hresult : s.result = .val (hi ++ lo)) : collectResult s = handOver hi lo s := by
  rw [collectResult, if_pos hok, hresult]
  exact respond_storeResult_append hi lo s

/-- Outside OK the response is empty (R196). -/
theorem collectResult_of_not_ok {s : State} (h : s.status.outcome ≠ .ok) : collectResult s = respond 0 s := if_neg h

/-- Both ends of `MeasureRequest`, RESULT unspecified or not. -/
theorem collectResult_cases (s : State) :
    collectResult s = respond 0 s ∨ ∃ hi lo n, collectResult s = handOver hi lo (s.withFresh n) := by
  by_cases hok : s.status.outcome = .ok
  · obtain ⟨n, hn⟩ := readHeld_state s.result s
    exact .inr ⟨_, _, n, by rw [collectResult, if_pos hok, ← hn]; exact respond_storeResult ..⟩
  · exact .inl (collectResult_of_not_ok hok)

/-- Settles O49: on OK the two halves of RESULT are handed over; the other outcomes are not OK. -/
theorem collectedResponseIsTheResult : Obligations.CollectedResponseIsTheResult := by
  intro s hphase
  rw [servePort_collect hphase]
  refine ⟨fun hi lo hok hresult => ?_, fun hfail => ?_⟩
  · exact ⟨_, by rw [collectResult_of_ok hok hresult]; rfl, handOver_read hi lo s⟩
  · rw [collectResult_of_not_ok (by rcases hfail with h | h <;> simp [h])]
    rfl

/-! What a step of the port that writes no word changes. -/

/-- `t` is `s` but for the port, what waits for it and what it has handed out, and the free-value index; of RESP_BUF
only the bytes of a response differ. -/
def PortChanges (s t : State) : Prop :=
  ∃ q inbox responses n,
    t = { s with port := q, env := { s.env with inbox := inbox, responses := responses }, fresh := n } ∧
    ∀ a, a ≠ 0 → a ≠ 1 → q.respBuf.read a = s.port.respBuf.read a

theorem PortChanges.refl (s : State) : PortChanges s s := ⟨_, _, _, _, rfl, fun _ _ _ => rfl⟩

theorem portChanges_setPhase (ph : PortPhase) (s : State) : PortChanges s (setPhase ph s) :=
  ⟨_, _, _, _, rfl, fun _ _ _ => rfl⟩

theorem portChanges_respond_empty (s : State) : PortChanges s (respond 0 s) := ⟨_, _, _, _, rfl, fun _ _ _ => rfl⟩

theorem portChanges_collectResult (s : State) : PortChanges s (collectResult s) := by
  obtain h | ⟨hi, lo, n, h⟩ := collectResult_cases s
  · exact h ▸ portChanges_respond_empty s
  · obtain ⟨-, -, hbuf⟩ := handOver_read hi lo (s.withFresh n)
    exact h ▸ ⟨_, _, _, _, rfl, hbuf⟩

/-- A request that is begun is answered at once or waits. -/
theorem portChanges_begins {s t : State} {r : Request} {rest : List Request} (hphase : s.port.phase = .idle)
    (hinbox : s.env.inbox = r :: rest) (h : servePort s = .next t) : PortChanges s t := by
  obtain ⟨htemp, hhum, hrefused⟩ := recognizedRequestsAreBegunOrRefused s r rest hphase hinbox
  obtain hcode | hcode | hcode | hcode := requestCode_cases s.cfg.params r.code
  · cases (htemp hcode).symm.trans h; exact ⟨_, _, _, _, rfl, fun _ _ _ => rfl⟩
  · cases (hhum hcode).symm.trans h; exact ⟨_, _, _, _, rfl, fun _ _ _ => rfl⟩
  · cases (hrefused hcode).symm.trans h
  · cases (unrecognizedRequestAnswersNothing s r rest hphase hinbox hcode).symm.trans h
    exact ⟨_, _, _, _, rfl, fun _ _ _ => rfl⟩

theorem servePort_portChanges {s t : State} (h : servePort s = .next t) (hwrite : ∀ c, s.port.phase ≠ .write c) :
    PortChanges s t := by
  have hwaits (b : Bool) (ph : PortPhase) : PortChanges s (if b = true then s else setPhase ph s) := by
    cases b with
    | true => exact .refl s
    | false => exact portChanges_setPhase ph s
  cases hphase : s.port.phase with
  | idle =>
    cases hinbox : s.env.inbox with
    | nil => simp only [servePort, hphase, hinbox] at h; cases h; exact .refl s
    | cons r rest => exact portChanges_begins hphase hinbox h
  | waitIdle c => cases (servePort_waitIdle hphase).symm.trans h; exact hwaits _ _
  | write c => exact absurd hphase (hwrite c)
  | check =>
    cases hillegal : s.status.illegal with
    | true => cases (servePort_check_rejected hphase hillegal).symm.trans h; exact portChanges_respond_empty s
    | false => cases (servePort_check_issued hphase hillegal).symm.trans h; exact portChanges_setPhase _ s
  | waitDone => cases (servePort_waitDone hphase).symm.trans h; exact hwaits _ _
  | collect => cases (servePort_collect hphase).symm.trans h; exact portChanges_collectResult s

/-- Settles O54: of what a step that writes no word changes, nothing is the engine's or the sensor's. -/
theorem requestPortLeavesTheEngine : Obligations.RequestPortLeavesTheEngine := by
  intro s t h hwrite
  obtain ⟨_, _, _, _, rfl, hbuf⟩ := servePort_portChanges h hwrite
  exact ⟨rfl, rfl, rfl, rfl, rfl, rfl, rfl, rfl, rfl, rfl, hbuf⟩

end Sys2Proof.Machine

namespace Sys2Proof.Machine

/-! The engine does not look at the host request port or at the turns to come. -/

/-- `s` with another host request port and other turns to come. -/
def rehost (q : RequestPort) (a : List Turn) (s : State) : State :=
  (s.withPort q).withEnv { s.env with agenda := a }

section
variable (q : RequestPort) (a : List Turn) (s : State)

@[simp] theorem rehost_cfg : (rehost q a s).cfg = s.cfg := rfl
@[simp] theorem rehost_status : (rehost q a s).status = s.status := rfl
@[simp] theorem rehost_scratch : (rehost q a s).scratch = s.scratch := rfl
@[simp] theorem rehost_seq : (rehost q a s).seq = s.seq := rfl
@[simp] theorem rehost_rdata : (rehost q a s).rdata = s.rdata := rfl

theorem assign_rehost (u : Upd) : assign u (rehost q a s) = (assign u s).map (rehost q a) := by
  cases u <;>
    simp only [assign, getCmd, getBitCnt, getAcc, lastSample, rehost_scratch, rehost_status, rehost_rdata]
  case shiftCmd => cases s.scratch.cmd <;> rfl
  case incBitCnt => cases s.scratch.bitCnt <;> rfl
  case ackFromSample => cases s.status.smpBit <;> rfl
  case shiftInSample => cases s.scratch.acc <;> cases s.status.smpBit <;> rfl
  case rdataFromAcc => cases s.scratch.acc <;> rfl
  case resultFromBytes => cases s.scratch.acc <;> cases s.rdata <;> rfl
  all_goals rfl

theorem sample_rehost : sample (rehost q a s) = Prod.map id (rehost q a) (sample s) := by
  by_cases h : SampleDraws s
  · rw [sample_of_draws h, sample_of_draws (s := rehost q a s) h]; rfl
  · rw [sample_of_not_draws h, sample_of_not_draws (s := rehost q a s) h]; rfl

theorem pollOnce_rehost (level : Bool) (b : Bound) :
    pollOnce level b (rehost q a s) = (pollOnce level b s).map (Prod.map (rehost q a) id) := by
  simp only [pollOnce, pollMiss, getPollCnt, sample_rehost, Prod.map, id, rehost_scratch]
  split
  · rfl
  · cases (sample s).2.scratch.pollCnt with
    | none => rfl
    | some n => simp only; split <;> rfl

theorem perform_rehost (act : Act) :
    perform act (rehost q a s) = (perform act s).map (Prod.map (rehost q a) id) := by
  cases act <;> simp only [perform, getCmd, rehost_scratch, rehost_status, rehost_cfg]
  case bitFirst | bitSecond => cases s.scratch.cmd with
    | none => rfl
    | some c => simp only; split <;> rfl
  case sample => rw [sample_rehost]; rfl
  case ackClkLow => cases s.status.ackBit <;> rfl
  case pollReady | pollConversion => exact pollOnce_rehost ..
  all_goals rfl

theorem offer_rehost (op : Instr) : offer op (rehost q a s) = rehost q a (offer op s) := by
  simp only [offer, rehost_status, apply_ite (rehost q a)]
  rfl

variable {q a s} {t : State}

theorem assignAll_rehost {us : List Upd} (h : assignAll us s = .ok t) :
    assignAll us (rehost q a s) = .ok (rehost q a t) := by
  induction us generalizing s with
  | nil => cases h; rfl
  | cons u us ih =>
    simp only [assignAll, assign_rehost] at h ⊢
    cases hu : assign u s with
    | ok s1 => rw [hu] at h; exact ih h
    | error f => rw [hu] at h; cases h

theorem takeSubStep_rehost {op : Instr} {k : Nat} {sub : SubStep} {again : Bool}
    (h : takeSubStep op k sub again s = .next t) :
    takeSubStep op k sub again (rehost q a s) = .next (rehost q a t) := by
  unfold takeSubStep at h ⊢
  split at h
  · cases h
  · rename_i s1 hpre
    split at h
    · cases h
    · rename_i s2 fl hact
      cases h
      simp only [assignAll_rehost hpre, perform_rehost, hact]
      rfl

theorem finish_rehost {p : MicroProgram} (h : finish p s = .next t) :
    finish p (rehost q a s) = .next (rehost q a t) := by
  unfold finish at h ⊢
  split at h
  · cases h
  · rename_i s1 hfinal
    cases h
    rw [assignAll_rehost hfinal]
    rfl

theorem continueOp_rehost {op : Instr} {p : MicroProgram} {k : Nat} {stage : Stage}
    (h : continueOp op p k stage s = .next t) :
    continueOp op p k stage (rehost q a s) = .next (rehost q a t) := by
  unfold continueOp at h ⊢
  split at h
  · cases h; rfl
  · split at h
    · exact takeSubStep_rehost h
    · split at h
      · rename_i hend
        simp only [hend, if_true]
        exact finish_rehost h
      · cases h

theorem operate_rehost {op : Instr} {p : MicroProgram} (h : operate op p s = .next t) :
    operate op p (rehost q a s) = .next (rehost q a t) := by
  simp only [operate, rehost_seq] at h ⊢
  split at h
  · cases h
    rw [offer_rehost]
  · split at h
    · rename_i hop
      rw [if_pos hop]
      exact continueOp_rehost h
    · rename_i hop
      cases h
      rw [if_neg hop]
      rfl

theorem exec_rehost {i : Instr} (h : exec i s = .next t) : exec i (rehost q a s) = .next (rehost q a t) := by
  obtain ⟨op, p, -, -, -, -, -, -, hexec⟩ := exec_eq_operate i
  rw [hexec] at h ⊢
  exact operate_rehost h

theorem issueCode_rehost {c : Code} (h : issueCode c s = .next t) :
    issueCode c (rehost q a s) = .next (rehost q a t) := by
  by_cases hbusy : s.status.busy = true
  · cases (issueCode_of_busy c hbusy).symm.trans h
    exact issueCode_of_busy c hbusy
  · rw [Bool.not_eq_true] at hbusy
    cases hc : decode c with
    | ok i =>
      rw [issueCode_of_ok hbusy hc] at h
      exact (issueCode_of_ok (s := rehost q a s) hbusy hc).trans (exec_rehost h)
    | error r =>
      cases (issueCode_of_error hc s).symm.trans h
      exact issueCode_of_error hc _

end

/-! The request being served is not looked at (R198). -/

/-- `s` with another request being served. -/
def withRequest (r : Option Request) (s : State) : State := s.withPort { s.port with req := r }

theorem EngineAnswers.env {s t : State} (h : EngineAnswers s t) : t.env = s.env := by
  cases h with
  | stays => rfl
  | rejects => rfl
  | executes _ hexec =>
    obtain ⟨-, -, -, henv⟩ := exec_frame hexec
    exact henv

/-- The engine takes a word written to OPW whatever request is being served. -/
theorem portWrite_withRequest {w : Word} {s t : State} (r : Option Request) (h : portWrite 0 2 w s = .next t) :
    portWrite 0 2 w (withRequest r s) = .next (withRequest r t) := by
  have hport := (portWrite_answers h).port
  have henv := (portWrite_answers h).env
  have hrehost : rehost { s.port with req := r } s.env.agenda t = withRequest r t := by
    rw [← hport, ← henv]; rfl
  exact (issueCode_rehost (q := { s.port with req := r }) (a := s.env.agenda) h).trans (by rw [hrehost])

/-- A response drops the request, whatever it is (R191). -/
theorem respond_withRequest (len : Fin 5) (r : Option Request) (s : State) :
    respond len (withRequest r s) = respond len s := rfl

theorem collectResult_withRequest (r : Option Request) (s : State) :
    collectResult (withRequest r s) = collectResult s := by
  by_cases hok : s.status.outcome = .ok
  · have hread : readHeld s.result (withRequest r s) = Prod.map id (withRequest r) (readHeld s.result s) := by
      cases s.result <;> rfl
    have hok' : (withRequest r s).status.outcome = .ok := hok
    rw [collectResult, collectResult, if_pos hok, if_pos hok']
    exact (congrArg (fun x : Word × State => respond 2 (storeResult x.1 x.2)) hread).trans rfl
  · rw [collectResult_of_not_ok hok, collectResult_of_not_ok (s := withRequest r s) hok, respond_withRequest]

theorem servePort_withRequest {s t : State} (r : Option Request) (hidle : s.port.phase ≠ .idle)
    (h : servePort s = .next t) : ∃ r', servePort (withRequest r s) = .next (withRequest r' t) := by
  cases hphase : s.port.phase with
  | idle => exact absurd hphase hidle
  | waitIdle c =>
    cases (servePort_waitIdle hphase).symm.trans h
    exact ⟨r, by rw [servePort_waitIdle (s := withRequest r s) hphase, apply_ite (withRequest r)]; rfl⟩
  | write c =>
    obtain ⟨u, hwrite, rfl⟩ := servePort_write hphase h
    exact ⟨r, servePort_writes (s := withRequest r s) hphase (portWrite_withRequest r hwrite)⟩
  | check =>
    cases hillegal : s.status.illegal with
    | true =>
      cases (servePort_check_rejected hphase hillegal).symm.trans h
      exact ⟨none, servePort_check_rejected (s := withRequest r s) hphase hillegal⟩
    | false =>
      cases (servePort_check_issued hphase hillegal).symm.trans h
      exact ⟨r, servePort_check_issued (s := withRequest r s) hphase hillegal⟩
  | waitDone =>
    cases (servePort_waitDone hphase).symm.trans h
    exact ⟨r, by rw [servePort_waitDone (s := withRequest r s) hphase, apply_ite (withRequest r)]; rfl⟩
  | collect =>
    cases (servePort_collect hphase).symm.trans h
    exact ⟨(collectResult s).port.req, by
      rw [servePort_collect (s := withRequest r s) hphase, collectResult_withRequest]; rfl⟩

/-- `s` with other requests waiting. -/
def withInbox (rs : List Request) (s : State) : State := s.withEnv { s.env with inbox := rs }

/-- A request is begun by its code alone. -/
theorem servePort_withInbox {s t : State} {r r' : Request} {rest : List Request} (hphase : s.port.phase = .idle)
    (hinbox : s.env.inbox = r :: rest) (hsame : r'.code = r.code) (h : servePort s = .next t) :
    ∃ q, servePort (withInbox (r' :: rest) s) = .next (withRequest q t) := by
  obtain ⟨htemp, hhum, hrefused⟩ := recognizedRequestsAreBegunOrRefused s r rest hphase hinbox
  obtain ⟨htemp', hhum', -⟩ := recognizedRequestsAreBegunOrRefused (withInbox (r' :: rest) s) r' rest hphase rfl
  obtain hcode | hcode | hcode | hcode := requestCode_cases s.cfg.params r.code
  · cases (htemp hcode).symm.trans h
    exact ⟨some r', htemp' (hsame.trans hcode)⟩
  · cases (hhum hcode).symm.trans h
    exact ⟨some r', hhum' (hsame.trans hcode)⟩
  · cases (hrefused hcode).symm.trans h
  · cases (unrecognizedRequestAnswersNothing s r rest hphase hinbox hcode).symm.trans h
    rw [← hsame] at hcode
    exact ⟨none, unrecognizedRequestAnswersNothing (withInbox (r' :: rest) s) r' rest hphase rfl hcode⟩

/-- Settles O52: the request being served is not looked at, and the next one is begun by its code alone. -/
theorem parameterWordsAreIgnored : Obligations.ParameterWordsAreIgnored :=
  ⟨fun _ _ _ _ _ hphase _ h => servePort_withRequest _ hphase h,
    fun _ _ _ _ _ _ hphase hinbox h => servePort_withInbox hphase hinbox rfl h⟩

end Sys2Proof.Machine

namespace Sys2Proof.Machine

/-! Runs in which the operation is running before every step: what the engine's own turns run (R8). -/

/-- How far SEQ has come with an operation: 0 where the operation does not run, else the index it names and 1. -/
def Seq.reached (op : Instr) : Seq → Nat
  | .idle => 0
  | .run op' k _ => if op' = op then k + 1 else 0

theorem Seq.run_of_reached {op : Instr} {q : Seq} (h : 0 < q.reached op) : ∃ k stage, q = .run op k stage := by
  cases q with
  | idle => cases h
  | run op' k stage =>
    by_cases hop : op' = op
    · exact ⟨k, stage, by rw [hop]⟩
    · simp [Seq.reached, hop] at h

@[simp] theorem Seq.reached_run (op : Instr) (k : Nat) (stage : Stage) : (Seq.run op k stage).reached op = k + 1 :=
  if_pos rfl

/-- Steps of the engine from one state to another, `op` running before each. -/
inductive RunsOn (op : Instr) : List Drive → State → State → Prop
  | nil (s : State) : RunsOn op [] s s
  | cons {d : Drive} {ds : List Drive} {s u t : State} (hrunning : 0 < s.seq.reached op)
      (hstep : exec op (setDrive d s) = .next u) (hrest : RunsOn op ds u t) : RunsOn op (d :: ds) s t

section
variable {op : Instr} {ds es : List Drive} {s t u : State}

/-- A run that answers does so from its first step on. -/
theorem runOp_cons_inv {d : Drive} (h : runOp op (d :: ds) s = .next t) :
    ∃ u, exec op (setDrive d s) = .next u ∧ runOp op ds u = .next t := by
  simp only [runOp] at h
  split at h
  · rename_i u hstep; exact ⟨u, hstep, h⟩
  · cases h
  · cases h

theorem RunsOn.single {d : Drive} (hrunning : 0 < s.seq.reached op) (h : runOp op [d] s = .next t) :
    RunsOn op [d] s t := by
  obtain ⟨u, hstep, hend⟩ := runOp_cons_inv h
  cases hend
  exact .cons hrunning hstep (.nil _)

theorem RunsOn.append (h : RunsOn op ds s u) (h' : RunsOn op es u t) : RunsOn op (ds ++ es) s t := by
  induction h with
  | nil => exact h'
  | cons hrunning hstep _ ih => exact .cons hrunning hstep (ih h')

/-- A step brings an operation no further than its next index. -/
theorem exec_reached {p : MicroProgram} (hp : programOf op = some p) (h : exec op s = .next t) :
    t.seq.reached op ≤ s.seq.reached op + 1 := by
  rw [exec_of_programOf hp] at h
  obtain ⟨hidle, rfl⟩ | ⟨_, _, _, -, -, rfl⟩ | ⟨_, _, -, rfl⟩ |
    ⟨k, stage, sub, s1, s2, fl, hseq, -, -, -, -, rfl⟩ | ⟨_, _, -, -, -, rfl⟩ := operate_cases h
  · obtain hoffer | ⟨-, -, hoffer⟩ := offer_cases op s <;> rw [hoffer]
    · exact Nat.le_succ _
    · simp [issue, hidle]
  · exact Nat.le_succ _
  · exact Nat.zero_le _
  · cases fl <;> simp [hseq, nextSeq]
  · exact Nat.zero_le _

theorem runOp_reached {p : MicroProgram} (hp : programOf op = some p) (h : runOp op ds s = .next t) :
    t.seq.reached op ≤ s.seq.reached op + ds.length := by
  induction ds generalizing s with
  | nil => cases h; exact le_rfl
  | cons d ds ih =>
    obtain ⟨u, hstep, hrest⟩ := runOp_cons_inv h
    have hhead := exec_reached hp hstep
    have htail := ih hrest
    simp only [setDrive_seq, List.length_cons] at hhead ⊢
    omega

theorem RunsOn.of_reached {p : MicroProgram} (hp : programOf op = some p) (h : runOp op ds s = .next t)
    (hrunning : 0 < s.seq.reached op) (hreached : s.seq.reached op + ds.length ≤ t.seq.reached op) :
    RunsOn op ds s t := by
  induction ds generalizing s with
  | nil => cases h; exact .nil _
  | cons d ds ih =>
    obtain ⟨u, hstep, hrest⟩ := runOp_cons_inv h
    have hhead := exec_reached hp hstep
    have htail := runOp_reached hp hrest
    simp only [setDrive_seq, List.length_cons] at hhead hreached
    exact .cons hrunning hstep (ih hrest (by omega) (by omega))

/-- A run that brings the operation an index further with every step is never without it. -/
theorem RunsOn.of_indices {p : MicroProgram} (hp : programOf op = some p) {k : Nat} {stage stage' : Stage}
    (h : runOp op ds s = .next t) (hseq : s.seq = .run op k stage)
    (hseq' : t.seq = .run op (k + ds.length) stage') : RunsOn op ds s t :=
  .of_reached hp h (by simp [hseq]) (by simp [hseq, hseq']; omega)

end

/-- A poll that sees its level within its bound runs on to the next index. -/
theorem runsOn_poll {op : Instr} {p : MicroProgram} (hp : programOf op = some p) {k : Nat} {a : Act} {level : Bool}
    {bound : Bound} {s : State} (hseq : s.seq = .run op k .fresh) (hsub : p.steps[k]? = some (pollStep a))
    (hs : Released s) (hact : ∀ t : State, t.cfg = s.cfg → perform a t = pollOnce level bound t) {m : Nat}
    (hm : Admits bound m) :
    RunsOn op (List.replicate m (driveOf (!level)) ++ [driveOf level]) s
      ((setPollCnt m (setSmpBit level (setDrive (driveOf level) s))).withSeq (.run op (k + 1) .fresh)) := by
  have hexec := exec_of_programOf hp
  have hrunning (n : Nat) : 0 < (polled op k (!level) s n).seq.reached op := by
    cases n <;> simp [polled, hseq]
  have hmisses : RunsOn op (List.replicate m (driveOf (!level))) s (polled op k (!level) s m) := by
    induction m with
    | zero => exact .nil s
    | succ m ih =>
      have hmiss := exec_polled_miss hexec hseq hsub hs hact m
      rw [if_neg hm.ne_samples] at hmiss
      rw [List.replicate_succ']
      exact (ih hm.of_succ).append (.single (hrunning m) (runOp_cons hmiss))
  exact hmisses.append (.single (hrunning m) (runOp_cons (exec_polled_hit hexec hseq hsub hs hact m)))

/-- A MEASURE runs from its issue to its completion (R171). -/
theorem runsOn_measure {c hi lo : Byte} {s : State} (hready : Ready s) {ds r1 r2 : List Drive} {m n : Nat}
    (d : Drive) (hlen : ds.length = 69) (hack : ds[67]? = some .low) (hm : Admits s.cfg.params.readyBound m)
    (hn : Admits s.cfg.params.convBound n) (hlen1 : r1.length = 49) (hhi : Presents hi r1) (hlen2 : r2.length = 47)
    (hlo : Presents lo r2) :
    RunsOn (.measure c) (measureDrives ds m n r1 r2 d) (issue (.measure c) s)
      { endedSampled .ok false (lo.getLsbD 0) (idleLines s) d s with
        rdata := .val lo, result := .val (hi ++ lo) } := by
  have hp : programOf (.measure c) = some (measureProgram c) := rfl
  have hexec := exec_measure c
  obtain ⟨d', sc, hcommand⟩ := runOp_answered (a := false) (ds := s.env.sensDrv :: ds) hexec
    (measureProgram_steps c) (hready.accepts _) (by simp [hlen]) hack
  rw [runOp_issues hexec (hready.accepts _)] at hcommand
  have hsent : RunsOn (.measure c) ds (issue (.measure c) s) _ :=
    .of_indices hp (k := 0) (stage' := .fresh) hcommand rfl (by rw [hlen]; rfl)
  have hreadied : RunsOn (.measure c) (readyDrives m) _ _ :=
    runsOn_poll (level := true) (s := answered (.run (.measure c) 69 .fresh) false false d' sc s) hp rfl
      (getElem_pollReady (measureProgram_steps c)) ⟨rfl, rfl⟩ (fun t ht => perform_pollReady ht) hm
  have hconverted : RunsOn (.measure c) (conversionDrives n) _ _ :=
    runsOn_poll (level := false) hp rfl (getElem_pollConversion c) ⟨rfl, rfl⟩
      (s := answered (.run (.measure c) 70 .fresh) false true .release { sc with pollCnt := some m } s)
      (fun t ht => perform_pollConversion ht) hn
  obtain ⟨d2, hreads⟩ := runList_measureReads
    (s := answered (.run (.measure c) 71 .fresh) false false .low { sc with pollCnt := some n } s) ⟨rfl, rfl⟩ hlen1
    hhi hlen2 hlo
  have hbytes := RunsOn.of_indices hp (stage' := .fresh)
    (runOp_of_runList hexec ((drop_measureProgram_steps c).trans (List.append_nil _).symm) rfl hreads) rfl
    (by rw [List.length_append, hlen1, hlen2]; rfl)
  have hread := ((hsent.append hreadied).append hconverted).append hbytes
  rw [measureDrives, List.append_assoc _ r1]
  exact hread.append (.single (by simp) (runOp_measure_ends d rfl rfl rfl))

end Sys2Proof.Machine

namespace Sys2Proof.Machine

/-! A stretch of the agenda, turn by turn (R223). -/

/-- The turns take `s` to `t`, whatever turns come after them. -/
inductive TakesTurns : List Turn → State → State → Prop
  | nil (s : State) : TakesTurns [] s s
  | cons {turn : Turn} {turns : List Turn} {s u t : State}
      (hturn : ∀ rest, takeTurn turn (setAgenda rest s) = .next (setAgenda rest u)) (hrest : TakesTurns turns u t) :
      TakesTurns (turn :: turns) s t

theorem TakesTurns.append {as bs : List Turn} {s u t : State} (h : TakesTurns as s u) (h' : TakesTurns bs u t) :
    TakesTurns (as ++ bs) s t := by
  induction h with
  | nil => exact h'
  | cons hturn _ ih => exact .cons hturn (ih h')

/-- A run over the whole agenda. -/
theorem TakesTurns.core_run {turns : List Turn} {s t : State} (h : TakesTurns turns s t) :
    core.run turns.length (setAgenda turns s) = .next (setAgenda [] t) := by
  induction h with
  | nil => rfl
  | @cons turn turns s u t hturn _ ih =>
    have hstep : core.step (setAgenda (turn :: turns) s) = .next (setAgenda turns u) :=
      (step_of_turn (s := setAgenda (turn :: turns) s) rfl).trans (hturn turns)
    simp only [List.length_cons, Host.Core.run, hstep]
    exact ih

theorem exec_setAgenda {i : Instr} {s t : State} (h : exec i s = .next t) (a : List Turn) :
    exec i (setAgenda a s) = .next (setAgenda a t) := by
  obtain ⟨-, -, hport, -⟩ := exec_frame h
  have hrehost : rehost s.port a t = setAgenda a t := by rw [← hport]; rfl
  exact hrehost ▸ exec_rehost (q := s.port) (a := a) h

/-- The engine's turns take a running operation's steps. -/
theorem RunsOn.takesTurns {op : Instr} {ds : List Drive} {s t : State} (h : RunsOn op ds s t) :
    TakesTurns (drivenTurns ds) s t := by
  induction h with
  | nil s => exact .nil s
  | @cons d _ s _ _ hrunning hstep _ ih =>
    obtain ⟨k, stage, hseq⟩ := Seq.run_of_reached hrunning
    refine .cons (u := setDrive d s) (fun _ => rfl) (.cons (fun rest => ?_) ih)
    exact (engineTurn_of_run (s := setAgenda rest (setDrive d s)) hseq).trans (exec_setAgenda hstep rest)

/-! A get-temperature request (R191 to R193). -/

theorem encode_measure (c : Byte) : encode (.measure c) = .opw (measureWord c) := by
  have h : ∀ c : Byte, opWord 0xC false c = measureWord c := by decide +kernel
  exact congrArg Code.opw (h c)

/-- A ready engine issues the MEASURE word that the port writes (R90, R192). -/
theorem portWrite_measureWord (c : Byte) {s : State} (hready : Ready s) :
    portWrite 0 2 (measureWord c) s = .next (issue (.measure c) s) := by
  have hdecode : decode (.opw (measureWord c)) = .ok (.measure c) := decode_eq_ok_iff.mpr (encode_measure c)
  rw [portWrite_opw, issueCode_of_ok hready.1.2 hdecode, exec_of_idle (by simp [programOf]) hready.1.1,
    (hready.accepts _).offer_eq]

/-- `s` with the port serving `r`, at a phase, and no other request waiting. -/
def servingOnly (r : Request) (ph : PortPhase) (s : State) : State :=
  withInbox [] (s.withPort { s.port with req := some r, phase := ph })

/-- From the request to the second wait: the measurement has been issued (R191, R192). -/
theorem requestTurns_take {r : Request} {s : State} (hready : Ready s) (hphase : s.port.phase = .idle)
    (hinbox : s.env.inbox = []) (hcode : r.code = s.cfg.params.reqGetTemp) :
    TakesTurns (requestTurns r) s (issue (.measure 0x03) (servingOnly r .waitDone s)) := by
  have hwidth : r.code < 2 ^ s.cfg.params.reqCodeWidth :=
    lt_of_mem_requestCodes (by simp [Params.requestCodes, hcode])
  have hpresents (rest : List Turn) :
      takeTurn (.request r) (setAgenda rest s) = .next (setAgenda rest (withInbox [r] s)) :=
    (if_pos hwidth).trans (by simp only [setAgenda, withInbox, State.withEnv_env, hinbox]; rfl)
  have hbegins (rest : List Turn) : servePort (setAgenda rest (withInbox [r] s)) =
      .next (setAgenda rest (servingOnly r (.waitIdle 0x03) s)) :=
    (recognizedRequestsAreBegunOrRefused (setAgenda rest (withInbox [r] s)) r [] hphase rfl).1 hcode
  have hwaits (rest : List Turn) : servePort (setAgenda rest (servingOnly r (.waitIdle 0x03) s)) =
      .next (setAgenda rest (servingOnly r (.write 0x03) s)) :=
    (servePort_waitIdle (s := setAgenda rest (servingOnly r (.waitIdle 0x03) s)) rfl).trans
      (by rw [if_neg (by simp [setAgenda, servingOnly, withInbox, hready.1.2])]; rfl)
  have hwrites (rest : List Turn) : servePort (setAgenda rest (servingOnly r (.write 0x03) s)) =
      .next (setAgenda rest (issue (.measure 0x03) (servingOnly r .check s))) :=
    servePort_writes (s := setAgenda rest (servingOnly r (.write 0x03) s)) rfl (portWrite_measureWord _ hready)
  have hchecks (rest : List Turn) : servePort (setAgenda rest (issue (.measure 0x03) (servingOnly r .check s))) =
      .next (setAgenda rest (issue (.measure 0x03) (servingOnly r .waitDone s))) :=
    servePort_check_issued (s := setAgenda rest (issue (.measure 0x03) (servingOnly r .check s))) rfl rfl
  exact .cons hpresents (.cons hbegins (.cons hwaits (.cons hwrites (.cons hchecks (.nil _)))))

/-- From the completion of the measurement with OK to the response (R192). -/
theorem responseTurns_take {hi lo : Byte} {s : State} (hphase : s.port.phase = .waitDone)
    (hbusy : s.status.busy = false) (hok : s.status.outcome = .ok) (hresult : s.result = .val (hi ++ lo)) :
    TakesTurns [Turn.serve, Turn.serve] s (handOver hi lo s) := by
  have hwaits (rest : List Turn) :
      servePort (setAgenda rest s) = .next (setAgenda rest (setPhase .collect s)) :=
    (servePort_waitDone (s := setAgenda rest s) hphase).trans (by rw [if_neg (by simp [setAgenda, hbusy])]; rfl)
  have hcollects (rest : List Turn) :
      servePort (setAgenda rest (setPhase .collect s)) = .next (setAgenda rest (handOver hi lo s)) :=
    (servePort_collect (s := setAgenda rest (setPhase .collect s)) rfl).trans
      (congrArg _ (collectResult_of_ok (s := setAgenda rest (setPhase .collect s)) hok hresult))
  exact .cons hwaits (.cons hcollects (.nil _))

/-- Settles O53: the port's turns up to its second wait, the measurement's, and the port's two last ones. -/
theorem getTemperatureAnswersTheTwoBytes : Obligations.GetTemperatureAnswersTheTwoBytes := by
  intro s r hi lo ds r1 r2 m n d hready hphase hinbox hcode hlen hack hm hn hlen1 hhi hlen2 hlo hagenda
  have hserved : Ready (servingOnly r .waitDone s) := hready
  have hmeasured := (runsOn_measure (c := 0x03) hserved d hlen hack hm hn hlen1 hhi hlen2 hlo).takesTurns
  have hturns := ((requestTurns_take hready hphase hinbox hcode).append hmeasured).append
    (responseTurns_take rfl rfl rfl rfl)
  have hrun := hturns.core_run
  rw [← hagenda] at hrun
  obtain ⟨hfirst, hsecond, -⟩ := handOver_read hi lo (servingOnly r .waitDone s)
  exact ⟨_, hrun, rfl, rfl, rfl, hfirst, hsecond, rfl, rfl⟩

end Sys2Proof.Machine

namespace Sys2Proof.Machine

/-! Raises, and the operations that have none (R210, R212). -/

/-- A raise is followed by the completion (R210). -/
theorem operate_endsRaise {op : Instr} {p : MicroProgram} {s : State} {k : Nat} {o : OpResult}
    (hseq : s.seq = .run op k (.raised o)) : operate op p s = .next (complete o s) := by
  simp [operate, hseq, continueOp]

/-- Settles O12: the running operation has raised, so its step is the completion. -/
theorem raisedOperationCompletes : Obligations.RaisedOperationCompletes := by
  intro op k o s hop hseq
  obtain ⟨p, hp⟩ := Option.ne_none_iff_exists'.mp hop
  exact (exec_of_programOf hp s).trans (operate_endsRaise hseq)

/-- An operation that sends no command has neither an acknowledgment nor a poll. -/
theorem programOf_advances {op : Instr} {p : MicroProgram} (hp : programOf op = some p) (hop : commandOf op = none) :
    ∀ st ∈ p.steps, st.act.branches = false := by
  cases op <;> cases hp
  case sendCmd | measure => cases hop
  case readByte sup => exact readByte_advances sup
  all_goals decide

/-- Settles O13: a sub-step of the operation goes on to the next index, and its end completes with OK. -/
theorem plainOperationsCompleteWithOk : Obligations.PlainOperationsCompleteWithOk := by
  intro op k stage s t hop hcmd hseq hstage h
  obtain ⟨p, hp⟩ := Option.ne_none_iff_exists'.mp hop
  rw [exec_of_programOf hp] at h
  obtain ⟨hidle, -⟩ | ⟨_, _, _, hother, hne, -⟩ | ⟨_, o, hraised, -⟩ |
    ⟨_, _, sub, _, _, _, hrun, -, hsub, -, hact, rfl⟩ | ⟨_, _, -, -, -, rfl⟩ := operate_cases h
  · cases hseq.symm.trans hidle
  · cases hseq.symm.trans hother
    exact absurd rfl hne
  · cases hseq.symm.trans hraised
    exact absurd rfl (hstage o)
  · cases hseq.symm.trans hrun
    rw [perform_advances hact (programOf_advances hp hcmd sub (List.mem_of_getElem? hsub))]
    exact .inr rfl
  · exact .inl ⟨rfl, rfl⟩

end Sys2Proof.Machine

namespace Sys2Proof.Machine

/-! No operation looks at ILLEGAL: a step after an ignored word is the step without it (R215). -/

section
variable (s : State)

@[simp] theorem reject_cfg : (reject s).cfg = s.cfg := rfl
@[simp] theorem reject_scratch : (reject s).scratch = s.scratch := rfl
@[simp] theorem reject_seq : (reject s).seq = s.seq := rfl
@[simp] theorem reject_rdata : (reject s).rdata = s.rdata := rfl
@[simp] theorem reject_ackBit : (reject s).status.ackBit = s.status.ackBit := rfl
@[simp] theorem reject_smpBit : (reject s).status.smpBit = s.status.smpBit := rfl

theorem assign_reject (u : Upd) : assign u (reject s) = (assign u s).map reject := by
  cases u <;> simp only [assign, getCmd, getBitCnt, getAcc, lastSample, reject_scratch, reject_smpBit, reject_rdata]
  case shiftCmd => cases s.scratch.cmd <;> rfl
  case incBitCnt => cases s.scratch.bitCnt <;> rfl
  case ackFromSample => cases s.status.smpBit <;> rfl
  case shiftInSample => cases s.scratch.acc <;> cases s.status.smpBit <;> rfl
  case rdataFromAcc => cases s.scratch.acc <;> rfl
  case resultFromBytes => cases s.scratch.acc <;> cases s.rdata <;> rfl
  all_goals rfl

theorem sample_reject : sample (reject s) = Prod.map id reject (sample s) := by
  by_cases h : SampleDraws s
  · rw [sample_of_draws h, sample_of_draws (s := reject s) h]; rfl
  · rw [sample_of_not_draws h, sample_of_not_draws (s := reject s) h]; rfl

theorem pollOnce_reject (level : Bool) (b : Bound) :
    pollOnce level b (reject s) = (pollOnce level b s).map (Prod.map reject id) := by
  simp only [pollOnce, pollMiss, getPollCnt, sample_reject, Prod.map, id, reject_scratch]
  split
  · rfl
  · cases (sample s).2.scratch.pollCnt with
    | none => rfl
    | some n => simp only; split <;> rfl

theorem perform_reject (a : Act) : perform a (reject s) = (perform a s).map (Prod.map reject id) := by
  cases a <;> simp only [perform, getCmd, reject_scratch, reject_ackBit, reject_cfg]
  case bitFirst | bitSecond => cases s.scratch.cmd with
    | none => rfl
    | some c => simp only; split <;> rfl
  case sample => rw [sample_reject]; rfl
  case ackClkLow => cases s.status.ackBit <;> rfl
  case pollReady | pollConversion => exact pollOnce_reject ..
  all_goals rfl

end

theorem assignAll_reject {us : List Upd} {s t : State} (h : assignAll us s = .ok t) :
    assignAll us (reject s) = .ok (reject t) := by
  induction us generalizing s with
  | nil => cases h; rfl
  | cons u us ih =>
    simp only [assignAll, assign_reject] at h ⊢
    cases hu : assign u s with
    | ok s1 => rw [hu] at h; exact ih h
    | error f => rw [hu] at h; cases h

/-- The completion at the end, whatever the stage there but a raise. -/
theorem operate_completes {op : Instr} {p : MicroProgram} {s s1 : State} {stage : Stage}
    (hseq : s.seq = .run op p.steps.length stage) (hstage : ∀ o, stage ≠ .raised o)
    (hfinal : assignAll p.final s = .ok s1) : operate op p s = .next (complete .ok s1) := by
  cases stage with
  | raised o => exact absurd rfl (hstage o)
  | _ => simp [operate, hseq, continueOp, finish, hfinal]

/-- While an operation runs, a step with ILLEGAL at 1 before it is the step with ILLEGAL at 1 after it. -/
theorem operate_reject {op : Instr} {p : MicroProgram} {s t : State} (hseq : s.seq ≠ .idle)
    (h : operate op p s = .next t) : operate op p (reject s) = .next (reject t) := by
  obtain ⟨hidle, -⟩ | ⟨_, _, _, hother, hne, rfl⟩ | ⟨_, _, hraised, rfl⟩ |
    ⟨_, _, sub, s1, s2, fl, hrun, hstage, hsub, hpre, hact, rfl⟩ | ⟨_, _, hrun, hstage, hfinal, rfl⟩ := operate_cases h
  · exact absurd hidle hseq
  · simp [operate, hother, hne]
  · exact operate_endsRaise (s := reject s) hraised
  · have hact' : perform sub.act (reject s1) = .ok (reject s2, fl) := by rw [perform_reject, hact]; rfl
    exact operate_takes (s := reject s) hrun hstage hsub (assignAll_reject hpre) hact'
  · exact operate_completes (s := reject s) hrun hstage (assignAll_reject hfinal)

/-- Settles O8: the rejection sets ILLEGAL, which no step of a running operation reads or writes. -/
theorem ignoredWordLeavesTheOperationRunning : Obligations.IgnoredWordLeavesTheOperationRunning := by
  intro i op k stage s t hseq h
  obtain ⟨op', p, -, -, -, -, -, -, hexec⟩ := exec_eq_operate i
  rw [hexec] at h
  exact (hexec _).trans (operate_reject (by simp [hseq]) h)

end Sys2Proof.Machine

namespace Sys2Proof.Machine

/-! TIMEOUT and the bounds of the polls (R213). -/

/-- A poll raises at its bound only (R145, R146). -/
theorem pollOnce_raises {level : Bool} {bound : Bound} {s t : State} {o : OpResult}
    (h : pollOnce level bound s = .ok (t, .raise o)) : bound ≠ .unbounded := by
  unfold pollOnce at h
  simp only [pollMiss] at h
  split at h
  · cases h
  · split at h
    · split at h
      · rename_i hbound
        simp [hbound]
      · cases h
    · cases h

/-- A sub-step raises TIMEOUT at the bound of a poll only: the acknowledgment raises NACK (R142). -/
theorem perform_raises_timeout {a : Act} {s t : State} (h : perform a s = .ok (t, .raise .timeout)) :
    s.cfg.params.readyBound ≠ .unbounded ∨ s.cfg.params.convBound ≠ .unbounded := by
  obtain hfl | ⟨hfl, -⟩ | ⟨_, -, -, rfl | rfl | rfl⟩ := perform_flow h
  · cases hfl
  · cases hfl
  · simp only [perform] at h
    cases hack : (readHeldBit s.status.ackBit s).1 <;> simp [hack, ackFlow] at h
  · exact .inl (pollOnce_raises h)
  · exact .inr (pollOnce_raises h)

/-- TIMEOUT has neither been raised nor reported (R213). -/
def NoTimeout (s : State) : Prop :=
  s.status.outcome ≠ .timeout ∧ ∀ op k, s.seq ≠ .run op k (.raised .timeout)

/-- With both bounds unbounded the engine's step brings no TIMEOUT. -/
theorem EngineStep.noTimeout {s t : State} (h : EngineStep s t) (hready : s.cfg.params.readyBound = .unbounded)
    (hconv : s.cfg.params.convBound = .unbounded) (hs : NoTimeout s) : NoTimeout t := by
  obtain ⟨houtcome, hraised⟩ := hs
  cases h with
  | stays => exact ⟨houtcome, hraised⟩
  | rejects => exact ⟨houtcome, hraised⟩
  | issues => exact ⟨by simp [issue], by simp [issue]⟩
  | endsRaise hseq =>
    refine ⟨?_, by simp [complete]⟩
    rintro rfl
    exact hraised _ _ hseq
  | @takes _ _ _ _ _ _ _ fl _ hseq _ _ hpre hact =>
    obtain ⟨_, _, _, _, _, _, _, rfl⟩ := assignAll_frame hpre
    have hfl : fl ≠ .raise .timeout := by
      rintro rfl
      exact (perform_raises_timeout hact).elim (absurd hready) (absurd hconv)
    obtain ⟨_, _, _, _, _, _, rfl⟩ := perform_frame hact
    refine ⟨houtcome, fun op k hraise => hfl ?_⟩
    cases fl <;> cases hraise
    rfl
  | ends => exact ⟨by simp [complete], by simp [complete]⟩

/-- Settles O35: a reset brings no TIMEOUT, and neither does the engine's step. -/
theorem timeoutNeedsABound : Obligations.TimeoutNeedsABound := by
  intro s t hready hconv houtcome hraised h
  obtain ⟨rest, -, rfl⟩ | ⟨s0, s1, ⟨_, _, _, rfl⟩, hstep, ⟨_, _, _, rfl⟩⟩ := step_engineStep h
  · exact ⟨by simp [resetStatus], by simp⟩
  · exact hstep.noTimeout hready hconv ⟨houtcome, hraised⟩

end Sys2Proof.Machine

namespace Sys2Proof.Machine

/-! Polls that never end (R214). -/

/-- The sub-steps that are polls (R145, R146). -/
def Act.polls : Act → Bool
  | .pollReady | .pollConversion => true
  | _ => false

/-- On every poll of a micro-program rides the assignment that clears POLLCNT, and no other (R145, R146). -/
theorem programOf_poll {op : Instr} {p : MicroProgram} (hp : programOf op = some p) {sub : SubStep}
    (hsub : sub ∈ p.steps) (hact : sub.act.polls = true) : sub = pollStep sub.act := by
  have hall : p.steps.all (fun st => !st.act.polls || decide (st.pre = [.clearPollCnt])) = true := by
    cases op <;> cases hp
    case readByte sup => cases sup <;> rfl
    case measure c =>
      simp only [measureProgram, measureSeq, List.all_append, Bool.and_eq_true]
      exact ⟨⟨⟨rfl, rfl⟩, rfl⟩, rfl⟩
    all_goals rfl
  have hpre : sub.pre = [.clearPollCnt] := by simpa [hact] using List.all_eq_true.mp hall sub hsub
  simp [pollStep, ← hpre]

/-- An iteration of an unbounded poll that reads the other level is followed by the next. -/
theorem pollOnce_unbounded {b : Bool} {s : State} {m : Nat} (hheld : ¬ SampleDraws s)
    (hdrv : s.env.sensDrv = driveOf b) (hcnt : s.scratch.pollCnt = some m) :
    pollOnce (!b) .unbounded s = .ok (setPollCnt (m + 1) (setSmpBit b s), .again) := by
  have hsample : sample s = (b, setSmpBit b s) := by
    rw [sample_of_not_draws hheld, hdrv]
    cases b <;> rfl
  have hcnt' : getPollCnt (setSmpBit b s) = .ok m := by simp [getPollCnt, setSmpBit, hcnt]
  simp [pollOnce, hsample, pollMiss, hcnt']

section
variable {op : Instr} {p : MicroProgram} {k : Nat} {sub : SubStep} {b : Bool} {s : State}
  (hp : programOf op = some p) (hsub : p.steps[k]? = some sub) (hpolls : sub.act.polls = true)
  (hact : ∀ t : State, t.cfg = s.cfg → perform sub.act t = pollOnce (!b) .unbounded t)
  (hseq : s.seq = .run op k .fresh) (hheld : ¬ SampleDraws (setDrive (driveOf b) s))

include hp hsub hpolls hact hseq hheld

/-- A poll without a bound is where it was after any number of samples of the other level. -/
theorem runOp_unbounded (m : Nat) : runOp op (List.replicate m (driveOf b)) s = .next (polled op k b s m) := by
  induction m with
  | zero => rfl
  | succ m ih =>
    obtain ⟨stage, smp, hrun, hstage, hpre⟩ := polled_counts op k b m (driveOf b) hseq
    have hperform := (hact (counting m (driveOf b) smp (.run op k stage) s) rfl).trans
      (pollOnce_unbounded (m := m) hheld rfl rfl)
    rw [programOf_poll hp (List.mem_of_getElem? hsub) hpolls] at hsub
    rw [List.replicate_succ', runOp_append ih]
    exact runOp_cons ((exec_of_programOf hp _).trans (operate_takes hrun hstage hsub hpre hperform))

/-- What a poll without a bound leaves after samples of the other level: SMPBIT apart, status, lines and results as they
were. -/
theorem unboundedPoll_goesOn {ds : List Drive} (hne : ds ≠ []) (hds : ∀ d ∈ ds, d = driveOf b) :
    ∃ t, runOp op ds s = .next t ∧ t.seq = .run op k .looping ∧ t.lines = s.lines ∧
      t.status = { s.status with smpBit := .val b } ∧ t.rdata = s.rdata ∧ t.result = s.result := by
  obtain ⟨m, hm⟩ := Nat.exists_eq_add_one.mpr (List.length_pos_iff.mpr hne)
  have hrun := runOp_unbounded hp hsub hpolls hact hseq hheld (m + 1)
  rw [← List.eq_replicate_iff.mpr ⟨hm, hds⟩] at hrun
  exact ⟨_, hrun, rfl, rfl, rfl, rfl, rfl⟩

end

/-- Settles O34: with DATA an input the sensor's low is a low, and with DATA RELEASED its release is a high. -/
theorem unboundedPollsGoOnForEver : Obligations.UnboundedPollsGoOnForEver := by
  refine ⟨fun op p k sub s ds hp hsub hact hseq hdir hbound hne hds => ?_,
    fun op p k sub s ds hp hsub hact hseq hreleased hbound hne hds => ?_⟩
  · have hpoll (t : State) (ht : t.cfg = s.cfg) : perform sub.act t = pollOnce true .unbounded t := by
      rw [hact, perform_pollReady ht, hbound]
    have hheld : ¬ SampleDraws (setDrive (driveOf false) s) := by simp [SampleDraws, hdir, driveOf]
    exact unboundedPoll_goesOn hp hsub (by rw [hact]; rfl) hpoll hseq hheld hne hds
  · have hpoll (t : State) (ht : t.cfg = s.cfg) : perform sub.act t = pollOnce false .unbounded t := by
      rw [hact, perform_pollConversion ht, hbound]
    obtain ⟨hdir, hpue⟩ := hreleased
    have hheld : ¬ SampleDraws (setDrive (driveOf true) s) := by simp [SampleDraws, hdir, hpue]
    exact unboundedPoll_goesOn hp hsub (by rw [hact]; rfl) hpoll hseq hheld hne hds

end Sys2Proof.Machine

namespace Sys2Proof.Machine

/-! Reset (70_reset_and_hazards.md R240). -/

/-- Settles O55: the turn is the reset, which leaves of the environment all but that turn. -/
theorem watchdogResetsTheEngine : Obligations.WatchdogResetsTheEngine := by
  intro s rest hagenda
  rw [step_of_turn hagenda]
  rfl

/-! Where a micro-program comes to a sample or a poll, DATA is RELEASED (R255). -/

/-- DATA is known to be RELEASED. -/
def KnownLines.released (κ : KnownLines) : Bool := decide (κ.dataDir = some .inp ∧ κ.dataPue = some true)

theorem KnownLines.Holds.released {κ : KnownLines} {s : State} (h : κ.Holds s.lines) (hκ : κ.released = true) :
    Released s := by
  obtain ⟨hdir, hpue⟩ := of_decide_eq_true hκ
  exact ⟨h.dataDir _ hdir, h.dataPue _ hpue⟩

/-- DATA is known to be RELEASED before each sample and each poll among the sub-steps. -/
def samplesReleased : KnownLines → List SubStep → Bool
  | _, [] => true
  | κ, st :: sts => (!st.act.samples || κ.released) && samplesReleased (κ.after st.act) sts

theorem samplesReleased_append {κ : KnownLines} {l l' : List SubStep} (h : samplesReleased κ l = true)
    (h' : samplesReleased (κ.afterAll l) l' = true) : samplesReleased κ (l ++ l') = true := by
  induction l generalizing κ with
  | nil => exact h'
  | cons st sts ih =>
    obtain ⟨hhead, htail⟩ := Bool.and_eq_true_iff.mp h
    exact Bool.and_eq_true_iff.mpr ⟨hhead, ih htail h'⟩

theorem samplesReleased_getElem {κ : KnownLines} {l : List SubStep} (h : samplesReleased κ l = true) {k : Nat}
    {st : SubStep} (hk : l[k]? = some st) (hst : st.act.samples = true) :
    (κ.afterAll (l.take k)).released = true := by
  induction l generalizing κ k with
  | nil => cases hk
  | cons a l ih =>
    obtain ⟨hhead, htail⟩ := Bool.and_eq_true_iff.mp h
    cases k with
    | zero =>
      cases hk
      simpa [hst, KnownLines.afterAll] using hhead
    | succ k => exact ih htail hk

/-- The acknowledgment releases DATA before its sample (R142), nothing drives it in either poll, and each byte read
samples before it drives DATA and releases it at its end (R147): so wherever the lines stood at entry. -/
theorem programOf_samplesReleased {op : Instr} {p : MicroProgram} (hp : programOf op = some p) {c : Byte}
    (hop : commandOf op = some c) : samplesReleased .nothing p.steps = true := by
  cases op <;> cases hp
  case sendCmd => rfl
  case measure c =>
    have hsend : samplesReleased .nothing (sendCmdSeq c) = true := rfl
    exact samplesReleased_append (samplesReleased_append (samplesReleased_append hsend rfl) rfl) rfl
  all_goals cases hop

/-- What `nextAct` names is the sub-step at SEQ's index, no raise being under way. -/
theorem nextAct_eq_some {s : State} {a : Act} (h : nextAct s = some a) :
    ∃ op k stage p sub, s.seq = .run op k stage ∧ (∀ o, stage ≠ .raised o) ∧ programOf op = some p ∧
      p.steps[k]? = some sub ∧ sub.act = a := by
  unfold nextAct at h
  split at h
  · cases h
  · rename_i op k stage hseq
    split at h
    · cases h
    · rename_i hstage
      split at h
      · rename_i p hp
        obtain ⟨sub, hsub, hact⟩ := Option.map_eq_some_iff.mp h
        exact ⟨op, k, stage, p, sub, hseq, hstage, hp, hsub, hact⟩
      · cases h

/-- Every run of a transaction operation keeps the lines where its place says. -/
theorem ReadyOrRunning.run {i op : Instr} {p : MicroProgram} (hexec : ∀ s, exec i s = operate op p s)
    (hi : isTransaction i) (hidle : endsIdle .nothing p.steps = true) {ds : List Drive} {s t : State}
    (hs : ReadyOrRunning op p s) (h : runOp i ds s = .next t) : ReadyOrRunning op p t := by
  induction ds generalizing s with
  | nil => cases h; exact hs
  | cons d ds ih =>
    simp only [runOp] at h
    split at h
    · rename_i s1 hstep
      have hd : ReadyOrRunning op p (setDrive d s) := hs
      exact ih (hd.step hidle (exec_keeps_config hi hstep) ((hexec _).symm.trans hstep)).1 h
    · cases h
    · cases h

theorem ReadyOrRunning.released {op : Instr} {p : MicroProgram} {s : State} {a : Act} (hs : ReadyOrRunning op p s)
    (hp : programOf op = some p) (hsamples : samplesReleased .nothing p.steps = true) (hnext : nextAct s = some a)
    (ha : a.samples = true) : Released s := by
  obtain ⟨op', k, stage, p', sub, hseq, hstage, hp', hsub, rfl⟩ := nextAct_eq_some hnext
  obtain ⟨-, ⟨hidle, -⟩ | ⟨k', stage', hseq', hlines⟩⟩ := hs
  · rw [hseq] at hidle; cases hidle
  · rw [hseq] at hseq'; cases hseq'
    rw [hp] at hp'; cases hp'
    exact (linesReady_known hlines hstage).released (samplesReleased_getElem hsamples hsub ha)

/-- Settles O32: the run keeps the lines where SEQ's place says, and at a sample or a poll that is RELEASED. -/
theorem commandProgramsSampleOnlyWhileReleased : Obligations.CommandProgramsSampleOnlyWhileReleased := by
  intro i c s t ds hc hready hrun hnext
  obtain ⟨op, p, hp, -, -, hcmd, -, -, hexec⟩ := exec_eq_operate i
  have hop : commandOf op = some c := hcmd.trans hc
  have hidle := programOf_endsIdle hp (.inr (.inr ⟨c, hop⟩))
  have hs : ReadyOrRunning op p s := ⟨hready.2, .inl hready.1⟩
  have ht := hs.run hexec (.inr (.inr ⟨c, hc⟩)) hidle hrun
  have hsamples := programOf_samplesReleased hp hop
  obtain hnext | hnext | hnext := hnext
  all_goals exact ht.released hp hsamples hnext rfl

end Sys2Proof.Machine
